-- ==== Sys2Proof/Word.lean ====
section
/-! DEFINITION. The word types of the KX8 and the two shapes of sparse data (tables and memories) every unit is held in. -/
namespace Sys2Proof

/-- A byte of memory (R9). -/
abbrev Byte := BitVec 8
/-- A register (R49) or an instruction word (R131). -/
abbrev W32 := BitVec 32
/-- An integer stack entry (R111), an address, a postmark (R338). -/
abbrev W64 := BitVec 64
/-- A V-stack slot (R111). -/
abbrev SlotBits := BitVec 8192
/-- A queue row or a tile row (R183, R279). -/
abbrev RowBits := BitVec 2048
/-- An accumulator row (R183); a tile row uses its low half. -/
abbrev AccBits := BitVec 4096

/-- Sparse data by key: an absent key holds the default its reader names. -/
abbrev Tbl (κ α : Type) := List (κ × α)

/-- Byte memory: (address, byte) pairs, addresses strictly rising, no byte equal to what an unlisted address reads as. -/
abbrev Memory := List Host.Cell

end Sys2Proof
end

