-- ==== Sys2Proof/Syntax.lean ====
section
/-! DEFINITION. The commands of the KX8: one constructor per row of the opcode table, and the operand types they carry. -/
namespace Sys2Proof

/-- What every core instruction carries: the core it issues on, and the guard predicate and sense of its word (R131, R132). -/
structure Issue where
  core : Fin 128
  g : BitVec 4
  s : Bool
  deriving DecidableEq, Repr

/-- Access widths of LD and DLD (R137). -/
inductive LoadWidth where
  | b | bu | h | hu | w | wu | d
  deriving DecidableEq, Repr

/-- Access widths of ST and DST (R137). -/
inductive StoreWidth where
  | b | h | w | d
  deriving DecidableEq, Repr

/-- binary32 or binary64 forms of a scalar instruction (R139). -/
inductive FloatWidth where
  | f32 | f64
  deriving DecidableEq, Repr

/-- Lane widths of VLD and VST (R156, R161). -/
inductive LaneWidth where
  | w16 | w32 | w64
  deriving DecidableEq, Repr

/-- Lane formats of the vector arithmetic (R162). -/
inductive LaneFormat where
  | f32 | f64 | k16
  deriving DecidableEq, Repr

/-- The fields of a TWLOAD bundle (R236, R239). -/
structure WeightLoad where
  arr : BitVec 2
  dly : BitVec 10
  opd : BitVec 5
  km1 : BitVec 7
  nm1 : BitVec 7
  etype : BitVec 2
  se : BitVec 8
  deriving DecidableEq, Repr

/-- The fields of a TSTREAM bundle (R236, R240). -/
structure Stream where
  arr : BitVec 2
  dly : BitVec 10
  opd : BitVec 5
  swap : Bool
  acc : BitVec 1
  row0 : BitVec 8
  rows : BitVec 9
  km1 : BitVec 7
  etype : BitVec 2
  se : BitVec 8
  deriving DecidableEq, Repr

/-- The fields of a TDRAIN bundle (R236, R241). -/
structure Drain where
  arr : BitVec 2
  dly : BitVec 10
  opd : BitVec 5
  acc : BitVec 1
  fmt : BitVec 2
  row0 : BitVec 8
  rows : BitVec 9
  smode : Bool
  shift : BitVec 8
  bias : Bool
  btile : BitVec 3
  clip : Bool
  sesrc : Bool
  se : BitVec 8
  deriving DecidableEq, Repr

/-- Who performs a register access (R46, R50): a host function, a core, or the management controller. -/
inductive Agent where
  | host (fn : Fin 64)
  | core (k : Fin 128)
  | mgmt
  deriving DecidableEq, Repr

/-- Who waits on a sync object (R323). -/
inductive Waiter where
  | core (k : Fin 128)
  | desc (k : Fin 128) (n : BitVec 4)
  | upe (e : Fin 16) (c : Fin 64)
  | ce (d : Fin 8) (c : Fin 64)
  deriving DecidableEq, Repr

/-- Where a docket came from: a function's letterbox or the SMBus (R473, R481). -/
inductive Via where
  | lb (fn : Fin 64)
  | smb
  deriving DecidableEq, Repr

/-- Why a lane is dropped (R436). -/
inductive LaneCause where
  | training | clock | uncorrectable | symLimit
  deriving DecidableEq, Repr

/-- What training left in one lane's shell (R439, R459). -/
structure LaneTraining where
  up : Bool
  precode : Bool
  txeq : BitVec 24
  ctle : BitVec 5
  dfe1 : BitVec 8
  deriving DecidableEq, Repr

/-- One codeword that a lane's decoder finished (R426, R427): the symbols it corrected, whether it could not be corrected. -/
structure Codeword where
  lane : Fin 8
  corrected : Fin 16
  lost : Bool
  deriving DecidableEq, Repr

/-- What the partner gives at link-up (R432, R439): the number of the last flit it accepted, and its credit for VC0 to VC3 in 64-byte units: the free space of its buffers when the link starts anew, its counts of units returned after a retrain. -/
structure LinkExchange where
  ack : BitVec 12
  vc0 : BitVec 16
  vc1 : BitVec 16
  vc2 : BitVec 16
  vc3 : BitVec 16
  deriving DecidableEq, Repr

/-- What a completed training leaves: the shells of the eight lanes, and what the partner gives. -/
structure PortTraining where
  shells : List LaneTraining
  partner : LinkExchange
  deriving DecidableEq, Repr

/-- A flit as it arrives at postmark `now`: its bits, its place in the partner's count, which the lanes' codeword counters give (R427, R429), and what the lanes' decoders reported since the flit before (R426). -/
structure ArrivedFlit where
  bits : RowBits
  seq : BitVec 12
  codewords : List Codeword
  now : W64
  deriving DecidableEq, Repr

/-- Where in BAR0 an agent accesses a register, and with how many bytes (R49). -/
structure RegAt where
  off : BitVec 28
  size : Nat
  deriving DecidableEq, Repr

/-- A write transaction of SMBus: its bytes, and whether its PEC is right (R481). -/
structure SmbWrite where
  data : List Byte
  pecOk : Bool
  deriving DecidableEq, Repr

/-- One 1 us sample of the strongroom (R483, R495): millivolts, milliamperes, watts, degrees Celsius, and the 100 MHz reference. Stack temperatures reach it as the reports of R24. -/
structure PowerSample where
  now : W64
  mv : Nat
  ma : Nat
  regionW : List Nat
  junction : Nat
  regTemp : Nat
  refLost : Bool
  deriving DecidableEq, Repr

/-- What the shell of one rail reports (R485): millivolts, milliamperes, degrees. -/
structure RailReading where
  mv : Nat
  ma : Nat
  temp : Nat
  deriving DecidableEq, Repr

/-- What the module arbiter reads in one 10 us period (R485, R487): measured input, conversion loss in watts, per region demand and hottest junction, and the report of every rail's shell. -/
structure ArbInput where
  now : W64
  mv : Nat
  ma : Nat
  loss : Nat
  demand : List Nat
  junction : List Nat
  rails : List RailReading
  deriving DecidableEq, Repr

/-- A store whose single-bit errors were corrected (R526): an on-core store, or a stack. -/
inductive EccSource where
  | core (k : Fin 128)
  | stack (d : Fin 8) (j : Fin 2)
  deriving DecidableEq, Repr

/-- Where a double-bit error struck an on-core data store (R526). -/
inductive DataStore where
  | mcache (set : Fin 256) (way : Fin 16) (sector : Fin 4)
  | tray (i : Fin 64)
  | queue (q : Fin 16) (i : Fin 64)
  | tile (a : Fin 4) (t : Fin 8) (row : Fin 128)
  | accumulator (a : Fin 4) (t : Fin 2) (row : Fin 256)
  | weight (a : Fin 4) (shadow : Bool) (row : Fin 128)
  | dmem (block : Fin 2048)
  deriving DecidableEq, Repr

/-- A control store with an uncorrectable error (R526). -/
inductive ControlStore where
  | commandQueue (k : Fin 128) (a : Fin 4)
  | descriptorTable (k : Fin 128)
  | sortingFrame (k : Fin 128)
  | syncObject (d : Fin 8)
  deriving DecidableEq, Repr

/-- A store whose parity errors only discard an entry (R526). -/
inductive CacheStore where
  | translation (i : Nat)
  | instruction
  deriving DecidableEq, Repr

/-- The commands: one constructor per row of the opcode table. -/
inductive Instr where
  /-- NOP (R137). Does nothing for one issue cycle. -/
  | nop (i : Issue)
  /-- SYSCALL (R147). Raises the SYSCALL cause with its code, saving the next PC. -/
  | syscall (i : Issue) (code : BitVec 12)
  /-- RETX (R358). Restores PC and CORE_STAT from the entry frame or dead-letter box in one step. -/
  | retx (i : Issue)
  /-- IFENCE (R141). Discards the instruction cache and fetched words. -/
  | ifence (i : Issue)
  /-- WAITI (R137). Enters low-power wait until an unmasked interrupt is pending. -/
  | waiti (i : Issue)
  /-- RDSR (R146). Pushes a control unit frame register read under the register rules. -/
  | rdsr (i : Issue) (n : BitVec 10)
  /-- WRSR (R146). Writes a control unit frame register, supervisor only at 0x0400 and above. -/
  | wrsr (i : Issue) (n : BitVec 10)
  /-- RDPC (R137). Pushes the address of this instruction. -/
  | rdpc (i : Issue)
  /-- PUSHI (R137). Pushes the sign-extended 20-bit immediate. -/
  | pushi (i : Issue) (imm : BitVec 20)
  /-- PUSHU (R137). Shifts the top entry left by 20 and ORs in the immediate. -/
  | pushu (i : Issue) (imm : BitVec 20)
  /-- ADDI (R137). Adds the sign-extended immediate to the top entry. -/
  | addi (i : Issue) (imm : BitVec 20)
  /-- ADD (R114). Pops two entries and pushes their 64-bit wrapping sum. -/
  | add (i : Issue)
  /-- SUB (R114). Pops two entries and pushes their wrapping difference. -/
  | sub (i : Issue)
  /-- MUL (R114). Pops two entries and pushes the low 64 bits of the product. -/
  | mul (i : Issue)
  /-- MULH (R137). Pushes the high 64 bits of the signed product. -/
  | mulh (i : Issue)
  /-- MULHU (R137). Pushes the high 64 bits of the unsigned product. -/
  | mulhu (i : Issue)
  /-- DIV (R114). Signed division rounding toward zero with defined edge cases. -/
  | div (i : Issue)
  /-- DIVU (R114). Unsigned division, all ones on divisor 0. -/
  | divu (i : Issue)
  /-- REM (R114). Signed remainder with the sign of the dividend. -/
  | rem (i : Issue)
  /-- REMU (R114). Unsigned remainder, the dividend on divisor 0. -/
  | remu (i : Issue)
  /-- AND (R137). Bitwise AND of two entries. -/
  | andI (i : Issue)
  /-- OR (R137). Bitwise OR of two entries. -/
  | orI (i : Issue)
  /-- XOR (R137). Bitwise exclusive-or of two entries. -/
  | xorI (i : Issue)
  /-- NOT (R137). Bitwise complement of the top entry. -/
  | notI (i : Issue)
  /-- NEG (R137). Two's complement negation of the top entry. -/
  | negI (i : Issue)
  /-- SHL (R114). Shifts left by the count modulo 64. -/
  | shl (i : Issue)
  /-- SHR (R114). Logical shift right by the count modulo 64. -/
  | shr (i : Issue)
  /-- SAR (R114). Arithmetic shift right by the count modulo 64. -/
  | sar (i : Issue)
  /-- MIN (R137). Signed minimum of two entries. -/
  | minI (i : Issue)
  /-- MAX (R137). Signed maximum of two entries. -/
  | maxI (i : Issue)
  /-- MINU (R137). Unsigned minimum of two entries. -/
  | minu (i : Issue)
  /-- MAXU (R137). Unsigned maximum of two entries. -/
  | maxu (i : Issue)
  /-- SEL (R137). Selects one of two entries by a predicate. -/
  | sel (i : Issue) (pn : BitVec 4)
  /-- DUP (R137). Duplicates the top integer entry. -/
  | dup (i : Issue)
  /-- DROP (R137). Discards the top integer entry. -/
  | drop (i : Issue)
  /-- SWAP (R137). Exchanges the two top integer entries. -/
  | swap (i : Issue)
  /-- OVER (R137). Copies the second integer entry to the top. -/
  | overI (i : Issue)
  /-- ROT (R137). Rotates the three top integer entries. -/
  | rot (i : Issue)
  /-- NIP (R137). Discards the second integer entry. -/
  | nip (i : Issue)
  /-- PICK (R137). Copies integer entry k to the top. -/
  | pick (i : Issue) (k : BitVec 4)
  /-- VDUP (R137). Duplicates the top V-stack slot. -/
  | vdup (i : Issue)
  /-- VDROP (R137). Discards the top V-stack slot. -/
  | vdrop (i : Issue)
  /-- VSWAP (R137). Exchanges the two top V-stack slots. -/
  | vswap (i : Issue)
  /-- VOVER (R137). Copies the second V-stack slot to the top. -/
  | vover (i : Issue)
  /-- VROT (R137). Rotates the three top V-stack slots. -/
  | vrot (i : Issue)
  /-- ICMP (R138). Compares two integers and writes a predicate. -/
  | icmp (i : Issue) (cc : BitVec 4) (pt : BitVec 4)
  /-- PAND (R137). Predicate AND. -/
  | pand (i : Issue) (pd : BitVec 4) (pa : BitVec 4) (pb : BitVec 4)
  /-- POR (R137). Predicate OR. -/
  | por (i : Issue) (pd : BitVec 4) (pa : BitVec 4) (pb : BitVec 4)
  /-- PXOR (R137). Predicate exclusive-or. -/
  | pxor (i : Issue) (pd : BitVec 4) (pa : BitVec 4) (pb : BitVec 4)
  /-- PANDN (R137). Predicate AND NOT. -/
  | pandn (i : Issue) (pd : BitVec 4) (pa : BitVec 4) (pb : BitVec 4)
  /-- PNOT (R137). Predicate complement. -/
  | pnot (i : Issue) (pd : BitVec 4) (pa : BitVec 4)
  /-- PMOV (R137). Predicate copy. -/
  | pmov (i : Issue) (pd : BitVec 4) (pa : BitVec 4)
  /-- PSET (R137). Sets a predicate to 1. -/
  | pset (i : Issue) (pd : BitVec 4)
  /-- PCLR (R137). Clears a predicate to 0. -/
  | pclr (i : Issue) (pd : BitVec 4)
  /-- BR (R144). PC-relative branch, predicted when guarded. -/
  | br (i : Issue) (imm : BitVec 20)
  /-- CALL (R144). PC-relative call pushing the return address. -/
  | call (i : Issue) (imm : BitVec 20)
  /-- BRI (R137). Indirect branch (RET) to a popped address. -/
  | bri (i : Issue)
  /-- CALLI (R137). Indirect call pushing the return address. -/
  | calli (i : Issue)
  /-- LD (R138). Loads a byte, half, word or doubleword from device memory. -/
  | ld (i : Issue) (wd : LoadWidth)
  /-- ST (R138). Stores low bytes of a value to device memory. -/
  | st (i : Issue) (wd : StoreWidth)
  /-- FLD (R137). Loads a binary32 or binary64 scalar onto the V-stack. -/
  | fld (i : Issue) (wd : FloatWidth)
  /-- FST (R137). Stores a binary32 or binary64 scalar to device memory. -/
  | fst (i : Issue) (wd : FloatWidth)
  /-- DLD (R137). Integer load from core data memory. -/
  | dld (i : Issue) (wd : LoadWidth)
  /-- DST (R137). Integer store to core data memory. -/
  | dst (i : Issue) (wd : StoreWidth)
  /-- FDLD (R137). Scalar floating load from core data memory. -/
  | fdld (i : Issue) (wd : FloatWidth)
  /-- FDST (R137). Scalar floating store to core data memory. -/
  | fdst (i : Issue) (wd : FloatWidth)
  /-- FADD (R139). Scalar floating addition. -/
  | fadd (i : Issue) (wd : FloatWidth)
  /-- FSUB (R139). Scalar floating subtraction. -/
  | fsub (i : Issue) (wd : FloatWidth)
  /-- FMUL (R139). Scalar floating multiplication. -/
  | fmul (i : Issue) (wd : FloatWidth)
  /-- FDIV (R139). Scalar floating division. -/
  | fdiv (i : Issue) (wd : FloatWidth)
  /-- FFMA (R139). Scalar fused multiply-add with one rounding. -/
  | ffma (i : Issue) (wd : FloatWidth)
  /-- FSQRT (R139). Scalar square root. -/
  | fsqrt (i : Issue) (wd : FloatWidth)
  /-- FMIN (R139). IEEE minimumNumber of two scalars. -/
  | fmin (i : Issue) (wd : FloatWidth)
  /-- FMAX (R139). IEEE maximumNumber of two scalars. -/
  | fmax (i : Issue) (wd : FloatWidth)
  /-- FNEG (R139). Flips the sign bit of a scalar. -/
  | fneg (i : Issue) (wd : FloatWidth)
  /-- FABS (R139). Clears the sign bit of a scalar. -/
  | fabs (i : Issue) (wd : FloatWidth)
  /-- FCMP (R139). Compares two scalars into a predicate. -/
  | fcmp (i : Issue) (wd : FloatWidth) (cc : BitVec 4) (pt : BitVec 4)
  /-- CVTIF (R139). Converts a signed 64-bit integer to float. -/
  | cvtif (i : Issue) (wd : FloatWidth)
  /-- CVTFI (R89). Converts a float to a signed 64-bit integer. -/
  | cvtfi (i : Issue) (wd : FloatWidth)
  /-- CVTFF (R89). Converts between binary32 and binary64. -/
  | cvtff (i : Issue) (wd : FloatWidth)
  /-- FMOVI (R139). Moves integer bits to a scalar slot. -/
  | fmovi (i : Issue) (wd : FloatWidth)
  /-- IMOVF (R139). Moves scalar bits to the integer stack. -/
  | imovf (i : Issue) (wd : FloatWidth)
  /-- VSETVL (R161). Sets VLEN to min(n, 512) and pushes it. -/
  | vsetvl (i : Issue)
  /-- VGETVL (R161). Pushes VLEN. -/
  | vgetvl (i : Issue)
  /-- VZERO (R161). Pushes an all-zero slot. -/
  | vzero (i : Issue)
  /-- VLD (R157). Loads active lanes of a slot from device memory, all or nothing. -/
  | vld (i : Issue) (wd : LaneWidth)
  /-- VST (R157). Stores active lanes of a slot to device memory, all or nothing. -/
  | vst (i : Issue) (wd : LaneWidth)
  /-- VCVT_F32_K16_LO (R161). Widens K16 lanes 0 to 255 to binary32 with SE. -/
  | vcvtF32K16Lo (i : Issue) (se : BitVec 8)
  /-- VCVT_F32_K16_HI (R161). Widens K16 lanes 256 to 511 to binary32 with SE. -/
  | vcvtF32K16Hi (i : Issue) (se : BitVec 8)
  /-- VCVT_K16_F32 (R161). Narrows two binary32 slots to one K16 slot with SE. -/
  | vcvtK16F32 (i : Issue) (se : BitVec 8)
  /-- VCVT_F64_F32_LO (R161). Widens binary32 lanes 0 to 127 to binary64. -/
  | vcvtF64F32Lo (i : Issue)
  /-- VCVT_F64_F32_HI (R161). Widens binary32 lanes 128 to 255 to binary64. -/
  | vcvtF64F32Hi (i : Issue)
  /-- VCVT_F32_F64 (R161). Narrows two binary64 slots to one binary32 slot. -/
  | vcvtF32F64 (i : Issue)
  /-- VCVT_I32_F32 (R161). Converts binary32 lanes to signed 32-bit integers. -/
  | vcvtI32F32 (i : Issue)
  /-- VCVT_F32_I32 (R161). Converts signed 32-bit lanes to binary32. -/
  | vcvtF32I32 (i : Issue)
  /-- VADD (R162). Lane-wise addition over active lanes. -/
  | vadd (i : Issue) (f : LaneFormat)
  /-- VSUB (R162). Lane-wise subtraction. -/
  | vsub (i : Issue) (f : LaneFormat)
  /-- VMUL (R162). Lane-wise multiplication. -/
  | vmul (i : Issue) (f : LaneFormat)
  /-- VDIV (R162). Lane-wise division. -/
  | vdiv (i : Issue) (f : LaneFormat)
  /-- VFMA (R162). Lane-wise fused multiply-add. -/
  | vfma (i : Issue) (f : LaneFormat)
  /-- VSQRT (R162). Lane-wise square root. -/
  | vsqrt (i : Issue) (f : LaneFormat)
  /-- VMIN (R162). Lane-wise minimum. -/
  | vmin (i : Issue) (f : LaneFormat)
  /-- VMAX (R162). Lane-wise maximum. -/
  | vmax (i : Issue) (f : LaneFormat)
  /-- VNEG (R162). Lane-wise sign flip. -/
  | vneg (i : Issue) (f : LaneFormat)
  /-- VABS (R162). Lane-wise absolute value. -/
  | vabs (i : Issue) (f : LaneFormat)
  /-- VCMP (R162). Lane-wise comparison into a mask slot. -/
  | vcmp (i : Issue) (f : LaneFormat) (cc : BitVec 4)
  /-- VSEL (R162). Lane-wise selection by mask. -/
  | vsel (i : Issue) (f : LaneFormat)
  /-- VEXP (R163). Lane-wise correctly rounded exponential. -/
  | vexp (i : Issue) (f : LaneFormat)
  /-- VLOG (R163). Lane-wise correctly rounded natural log. -/
  | vlog (i : Issue) (f : LaneFormat)
  /-- VRSUM (R163). Sums active lanes by the fixed pairwise tree. -/
  | vrsum (i : Issue) (f : LaneFormat)
  /-- VRMAX (R163). Largest active lane by the fixed tree. -/
  | vrmax (i : Issue) (f : LaneFormat)
  /-- VRMIN (R163). Smallest active lane by the fixed tree. -/
  | vrmin (i : Issue) (f : LaneFormat)
  /-- VBCAST (R162). Broadcasts a scalar to every active lane. -/
  | vbcast (i : Issue) (f : LaneFormat)
  /-- VLANE (R162). Pushes lane i as a scalar, ignoring VLEN. -/
  | vlane (i : Issue) (f : LaneFormat)
  /-- VINS (R162). Replaces lane i with a scalar, ignoring VLEN. -/
  | vins (i : Issue) (f : LaneFormat)
  /-- VSLIDEDN (R162). Slides lanes down by k. -/
  | vslidedn (i : Issue) (f : LaneFormat)
  /-- VSLIDEUP (R162). Slides lanes up by k. -/
  | vslideup (i : Issue) (f : LaneFormat)
  /-- VIOTA (R162). Pushes a slot whose lane l holds l. -/
  | viota (i : Issue) (f : LaneFormat)
  /-- VQPOP (R166). Pops 1, 2 or 4 entries of VQ0 into a slot once present. -/
  | vqpop (i : Issue) (c : BitVec 2)
  /-- VQPUSH (R166). Pushes 1, 2 or 4 quarters to VQ1 once room exists. -/
  | vqpush (i : Issue) (c : BitVec 2)
  /-- VWRED_SUM (R171). Wide-precision sum of memory elements in 128 binary64 partials. -/
  | vwredSum (i : Issue)
  /-- VWRED_SSQ (R171). Wide-precision sum of squares of memory elements. -/
  | vwredSsq (i : Issue)
  /-- VWRED_LSE (R172). Wide-precision log-sum-exp of memory elements. -/
  | vwredLse (i : Issue)
  /-- VXENT (R172). Log-sum-exp minus element t, the cross-entropy loss. -/
  | vxent (i : Issue)
  /-- RESUMABLE_CHUNK_END (R176). A chunk of a resumable instruction ends and it continues, completes or stops for a held interrupt. -/
  | resumableChunkEnd (k : Fin 128)
  /-- VFOLD (R179). Folds binary32 lanes by the long-sum fold, stepping every generator. -/
  | vfold (i : Issue)
  /-- VFOLD_SAVE (R179). Writes the 256 fold generator states to core data memory. -/
  | vfoldSave (i : Issue)
  /-- VFOLD_LOAD (R179). Loads the 256 fold generator states from core data memory. -/
  | vfoldLoad (i : Issue)
  /-- MCOPY (R181). Copies bytes in device memory chunk by chunk, resumably. -/
  | mcopy (i : Issue)
  /-- TCFG (R201). Sets a tile or accumulator configuration at array issue. -/
  | tcfg (i : Issue) (a : BitVec 2) (tile : BitVec 4)
  /-- TREL (R189). Marks a tile or accumulator empty and clears its row marks. -/
  | trel (i : Issue) (a : BitVec 2) (tile : BitVec 4)
  /-- TRELA (R189). Empties every tile store and unloads every weight set of all arrays. -/
  | trela (i : Issue)
  /-- TZERO (R228). Makes an accumulator full and zero at the end of its issue cycle. -/
  | tzero (i : Issue) (a : BitVec 2) (tile : BitVec 4)
  /-- TQUIESCE (R197). Completes when every command queue is empty and every tile instruction done. -/
  | tquiesce (i : Issue)
  /-- TSAVE (R192). Writes the image of a tile or accumulator to device memory. -/
  | tsave (i : Issue) (a : BitVec 2) (tile : BitVec 4)
  /-- TRESTORE (R193). Reads a tile image back, checking its header at dispatch. -/
  | trestore (i : Issue) (a : BitVec 2) (tile : BitVec 4)
  /-- TMOVE (R195). Copies a T tile to another array over the tile crossbar. -/
  | tmove (i : Issue) (sa : BitVec 2) (st : BitVec 3) (da : BitVec 2) (dt : BitVec 3)
  /-- TWLOAD (R206). Fills the shadow weight set from a tile or queue. -/
  | twload (i : Issue) (b : WeightLoad)
  /-- TSTREAM (R211). Streams activation rows through the array into an accumulator. -/
  | tstream (i : Issue) (b : Stream)
  /-- TDRAIN (R215). Drains accumulator rows through the fused drain converter. -/
  | tdrain (i : Issue) (b : Drain)
  /-- TFILL (R205). Pops queue entries into tile rows. -/
  | tfill (i : Issue) (a : BitVec 2) (dly : BitVec 10) (opd : BitVec 5) (tile : BitVec 3)
  /-- TEMIT (R205). Pushes tile rows to a queue tail. -/
  | temit (i : Issue) (a : BitVec 2) (dly : BitVec 10) (opd : BitVec 5) (tile : BitVec 3)
  /-- ARRAY_ISSUE (R200). An array issues the head of its command queue once its conditions hold. -/
  | arrayIssue (k : Fin 128) (a : BitVec 2) (cyc : Nat)
  /-- RAMP_STEP_END (R222). A ramp step of S cycles expires and the credit rate rises. -/
  | rampStepEnd (k : Fin 128) (a : BitVec 2) (cyc : Nat)
  /-- ARRAY_WIND_DOWN (R221). An idle array winds its column groups down over LEN cycles. -/
  | arrayWindDown (k : Fin 128) (a : BitVec 2) (cyc : Nat)
  /-- TILE_ROW_POP (R212). A feeder pops a row when an entry and credit are present, or admits a bubble. -/
  | tileRowPop (k : Fin 128) (a : BitVec 2) (cyc : Nat)
  /-- ACCUMULATE_ROW_WRITE (R209). The accumulate stage writes a row's column sums 258 cycles after entry. -/
  | accumulateRowWrite (k : Fin 128) (a : BitVec 2) (cyc : Nat)
  /-- TDRAIN_COMPLETE (R102). A drain completes and updates its scale record. -/
  | tdrainComplete (k : Fin 128) (a : BitVec 2) (cyc : Nat)
  /-- DRAIN_ENTRY_PUSH (R219). A de-skew buffer entry leaves to its queue when the queue has room. -/
  | drainEntryPush (k : Fin 128) (a : BitVec 2) (cyc : Nat)
  /-- AEPOST (R257). Posts a descriptor after checking its fields. -/
  | aepost (i : Issue)
  /-- AEWAIT (R257). Issues once the named descriptor is not busy. -/
  | aewait (i : Issue)
  /-- PREF (R269). Prefetches one sector into the tray. -/
  | pref (i : Issue)
  /-- AEREC (R256). Pushes a word of a descriptor fault record. -/
  | aerec (i : Issue)
  /-- AERESTART (R284). Writes a fault record's RESTART word from the core. -/
  | aerestart (i : Issue)
  /-- RESTART_GO (R284). Resumes a stopped descriptor at the failing row or element. -/
  | restartGo (ag : Agent) (k : Fin 128) (n : BitVec 4) (start : BitVec 4)
  /-- RESTART_ABORT (R284). Abandons a stopped descriptor, pushing invalid rows. -/
  | restartAbort (ag : Agent) (k : Fin 128) (n : BitVec 4)
  /-- DESCRIPTOR_START (R258). A descriptor starts once its WSYNC wait and queue predecessors allow. -/
  | descriptorStart (k : Fin 128) (n : BitVec 4)
  /-- LOAD_ROW_PUSH (R263). A LOAD row is pushed to its AQ once its bytes arrive, widening K12 rows. -/
  | loadRowPush (k : Fin 128) (n : BitVec 4)
  /-- STORE_ROW (R264). A STORE pops an SQ entry and writes the row. -/
  | storeRow (k : Fin 128) (n : BitVec 4)
  /-- GATHER_ROW_PUSH (R268). A gather row is pushed once all its elements arrive. -/
  | gatherRowPush (k : Fin 128) (n : BitVec 4)
  /-- DESCRIPTOR_COMPLETE (R259). A descriptor completes and arrives on ASYNC as a release. -/
  | descriptorComplete (k : Fin 128) (n : BitVec 4)
  /-- TRANSLATION_WALK (R273). A page-table walk completes, succeeding or failing with a cause. -/
  | translationWalk (k : Fin 128) (n : BitVec 4)
  /-- REQUEST_ISSUE (R276). The sorting frame issues one request per core cycle by its rules. -/
  | requestIssue (k : Fin 128) (cyc : Nat)
  /-- READ_DATA_RETURN (R287). Read data returns from a stack, installing any cache fill. -/
  | readDataReturn (k : Fin 128) (j : Nat)
  /-- TRAY_FILL_ARRIVAL (R294). A prefetch fill lands in the tray or is discarded on arrival. -/
  | trayFillArrival (k : Fin 128) (j : Nat)
  /-- WRITE_ACCEPTED (R551). A stack controller accepts a write and publishes it. -/
  | writeAccepted (k : Fin 128) (j : Nat)
  /-- FENCE (R300). Waits until every earlier access of the core is performed. -/
  | fence (i : Issue)
  /-- FENCE_AE (R300). As FENCE, and every earlier descriptor has completed. -/
  | fenceAe (i : Issue)
  /-- ACQUIRE (R300). As FENCE, then empties the tray. -/
  | acquire (i : Issue)
  /-- MCINV (R292). Invalidates cache sectors of a range, discarding dirty data. -/
  | mcinv (i : Issue)
  /-- MCCLN (R292). Writes back dirty sectors of a range. -/
  | mccln (i : Issue)
  /-- MCCLI (R292). Cleans then invalidates sectors of a range. -/
  | mccli (i : Issue)
  /-- MCINV_ALL (R292). Invalidates every line, empties the tray and sets INV_DONE. -/
  | mcinvAll (i : Issue)
  /-- MCCLN_ALL (R292). Cleans every line of the cache. -/
  | mcclnAll (i : Issue)
  /-- TRAYINV (R292). Empties the prefetch tray. -/
  | trayinv (i : Issue)
  /-- XINV (R274). Discards every cached translation of the core. -/
  | xinv (i : Issue)
  /-- XINV_A (R274). Discards the translation covering an address. -/
  | xinvA (i : Issue)
  /-- MAINT_MCINV_ALL (R309). MCACHE_MAINT OP 1 starts a full invalidate. -/
  | maintMcinvAll (ag : Agent) (k : Fin 128)
  /-- MAINT_MCCLN_ALL (R309). MCACHE_MAINT OP 2 starts a full clean. -/
  | maintMcclnAll (ag : Agent) (k : Fin 128)
  /-- MAINT_TRAYINV (R309). MCACHE_MAINT OP 3 empties the tray. -/
  | maintTrayinv (ag : Agent) (k : Fin 128)
  /-- MAINTENANCE_COMPLETE (R293). A full maintenance operation completes once its write-backs are accepted. -/
  | maintenanceComplete (k : Fin 128)
  /-- MCACHE_ENABLE_WRITE (R290). A write of MCACHE_CTRL.ENABLE, refused unless INV_DONE is set. -/
  | mcacheEnableWrite (ag : Agent) (k : Fin 128) (v : W32)
  /-- AE_XLATE_INV (R305). Writing INV discards every cached translation. -/
  | aeXlateInv (ag : Agent) (k : Fin 128)
  /-- AE_QFLUSH (R307). Discards the entries of the selected queues. -/
  | aeQflush (ag : Agent) (k : Fin 128) (v : W32)
  /-- ARRIVE (R313). Issues an ARRIVE by n to the sync port as a release. -/
  | arrive (i : Issue)
  /-- DEPART (R313). Issues a DEPART by n to the sync port as a release. -/
  | depart (i : Issue)
  /-- WAIT (R316). Waits until COUNTER is at least TARGET, as an acquire. -/
  | wait (i : Issue)
  /-- SIGNAL_AT (R326). Issues an ARRIVE to be performed when the postmark reaches t. -/
  | signalAt (i : Issue)
  /-- SRESET (R313). Resets an object's counter, target, flags and timers. -/
  | sreset (i : Issue)
  /-- SREAD (R313). Pushes an object's COUNTER without ordering. -/
  | sread (i : Issue)
  /-- RDPM (R339). Pushes the region's postmark copy. -/
  | rdpm (i : Issue)
  /-- SWAIT_T (R342). Waits until the postmark reaches t. -/
  | swaitT (i : Issue)
  /-- TSTART_AT (R343). Arms a start time for the next TSTREAM of an array. -/
  | tstartAt (i : Issue) (a : BitVec 2)
  /-- TSTART_LAUNCH (R343). The held TSTREAM is dispatched when the postmark reaches its armed time. -/
  | tstartLaunch (k : Fin 128) (a : BitVec 2) (now : W64)
  /-- SYNC_OP_PERFORM (R322). A sync operation is performed at its object and satisfying changes wake waiters. -/
  | syncOpPerform (k : Fin 128)
  /-- WAIT_WAKE (R324). A wake message reaches a waiter's region and its wait completes. -/
  | waitWake (who : Waiter)
  /-- SYNC_TIMER_FIRE (R326). A timer falls due and performs its ARRIVE. -/
  | syncTimerFire (d : Fin 8) (j : Nat) (now : W64)
  /-- LEND_LOW_POWER_ENTRY (R329). A LEND waiter enters low-power wait after LEND_AFTER and lends its share. -/
  | lendLowPowerEntry (k : Fin 128) (now : W64)
  /-- SWAIT_LEND_EXIT (R330). A low-power SWAIT.T leaves low-power wait at t - 1.5 us. -/
  | swaitLendExit (k : Fin 128) (now : W64)
  /-- DETECTOR_REPORT (R334). Each region's deadlock detector reports its quiet span every 1 us. -/
  | detectorReport (d : Fin 8) (now : W64)
  /-- DEADLOCK (R334). The lead region freezes a context whose quiet span passed SYNC_DLWIN and starts its dump. -/
  | deadlock (c : Fin 64) (now : W64)
  /-- SYNC_DUMP_DONE (R334). The post-mortem dump completes and sets DUMP_DONE. -/
  | syncDumpDone (c : Fin 64)
  /-- INT_TIMER (R381). INT_TIMER becomes pending when the postmark reaches CORE_TIMECMP. -/
  | intTimer (k : Fin 128) (now : W64)
  /-- CAUSE_ENTRY (R355). At a boundary the core enters the supervisor for a pending cause, writing the entry frame. -/
  | causeEntry (k : Fin 128)
  /-- CORE_DOORBELL (R382). A write sets CORE_DBSTAT flags, making INT_DOORBELL pending. -/
  | coreDoorbell (ag : Agent) (k : Fin 128) (v : W32)
  /-- PLAIN_REGISTER_WRITE (R46, R49). A plain-view write to a register without behaviour of its own. -/
  | plainRegisterWrite (ag : Agent) (at_ : RegAt) (v : W32)
  /-- SET_ALIAS_WRITE (R48). Indivisibly sets the RW bits written as 1. -/
  | setAliasWrite (ag : Agent) (at_ : RegAt) (v : W32)
  /-- CLEAR_ALIAS_WRITE (R48). Indivisibly clears the RW bits written as 1. -/
  | clearAliasWrite (ag : Agent) (at_ : RegAt) (v : W32)
  /-- TOGGLE_ALIAS_WRITE (R48). Indivisibly inverts the RW bits written as 1. -/
  | toggleAliasWrite (ag : Agent) (at_ : RegAt) (v : W32)
  /-- STATUS_REGISTER_WRITE (R56). Clears flags whose stamps are not newer than the written accession. -/
  | statusRegisterWrite (ag : Agent) (off : BitVec 28) (v : W32)
  /-- CAPTURING_LOW_READ (R49, R50). A low-word read captures the whole wide quantity for its agent. -/
  | capturingLowRead (ag : Agent) (at_ : RegAt)
  /-- COUNTER_WRITE (R235). A low-word write loads a 48-bit counter and clears its high bits. -/
  | counterWrite (ag : Agent) (off : BitVec 28) (v : W32)
  /-- POWERED_DOWN_TIMEOUT (R71). An access to a powered-down domain ends in a bus error after 10 us. -/
  | poweredDownTimeout (ag : Agent) (off : BitVec 28) (wr : Option W32)
  /-- PARITY_SCRUB (R59). The scrubber visits each parity-protected register every 1,024 cycles. -/
  | parityScrub (off : BitVec 28)
  /-- FOLD_SEED_WRITE (R109). Writing CORE_FOLD_SEED reloads all 256 lane generators. -/
  | foldSeedWrite (ag : Agent) (k : Fin 128) (v : W32)
  /-- ARRAY_RAMP_WRITE (R223). Writing TCU_ARRAY_RAMP during a ramp changes later steps and sets RAMP_REWRITE. -/
  | arrayRampWrite (ag : Agent) (k : Fin 128) (a : BitVec 2) (v : W32)
  /-- PTB_FLIP_GO (R529). Inverts a register's hidden parity bit once. -/
  | ptbFlipGo (ag : Agent) (d : Fin 8) (v : W32)
  /-- STRONGROOM_WRITE (R494). A write to a strongroom frame ends in a bus error and raises SRM_WRITE_DENIED. -/
  | strongroomWrite (ag : Agent) (off : BitVec 28) (v : W32)
  /-- UPE_RING_ENABLE_WRITE (R389). Setting a ring's EN, refused beyond 16 enabled rings. -/
  | upeRingEnableWrite (ag : Agent) (e : Fin 16) (c : Fin 64) (v : W32)
  /-- EVT_RING_ENABLE_WRITE (R535). Enabling an event ring latches its address and size, or is refused. -/
  | evtRingEnableWrite (ag : Agent) (f : Fin 64) (v : W32)
  /-- UPE_TAKE (R388). An engine takes the next descriptor of a ring after its ring object wait. -/
  | upeTake (e : Fin 16) (c : Fin 64)
  /-- UPE_CHUNK (R398). An engine performs one chunk of one pass, writing journal steps. -/
  | upeChunk (e : Fin 16) (c : Fin 64)
  /-- UPE_LAYER_COMPLETE (R411). A layer descriptor writes its STATUS and arrives on ASYNC. -/
  | upeLayerComplete (e : Fin 16) (c : Fin 64)
  /-- CKPT_ACK_TIMEOUT (R417). A checkpoint write unacknowledged for 10 ms ends the descriptor LINK_FAILED. -/
  | ckptAckTimeout (e : Fin 16) (c : Fin 64) (now : W64)
  /-- FLIT_SEND (R433). A port fills and sends one flit in priority order. -/
  | flitSend (p : Fin 12) (now : W64)
  /-- FLIT_RECEIVE (R434). A port receives a flit, checks CRC and sequence, NAKing on failure. -/
  | flitReceive (p : Fin 12) (flit : ArrivedFlit)
  /-- LCTL (R431). A received LCTL acknowledges flits, returns credit and may trigger replay. -/
  | lctl (p : Fin 12)
  /-- LANE_DEGRADED (R436). A lane fails and is dropped, and both directions restripe. -/
  | laneDegraded (p : Fin 12) (l : Fin 8) (cause : LaneCause)
  /-- PORT_UP (R439). Training completes and the port comes UP. -/
  | portUp (p : Fin 12) (lanes : BitVec 8) (tr : PortTraining)
  /-- TRAINING_TIMEOUT (R439). A port not UP 50 ms after training began goes DOWN. -/
  | trainingTimeout (p : Fin 12) (now : W64)
  /-- TRAINING_RETRY (R438). An enabled DOWN port attempts training every 100 ms. -/
  | trainingRetry (p : Fin 12) (now : W64)
  /-- LNK_ENABLE_WRITE (R457). Setting LNK_CTRL.ENABLE starts training; clearing it takes the port down. -/
  | lnkEnableWrite (ag : Agent) (p : Fin 12) (v : W32)
  /-- LTRAIN_RETRAIN (R459). Writing RETRAIN retrains the whole port. -/
  | ltrainRetrain (ag : Agent) (p : Fin 12) (l : Fin 8) (now : W64)
  /-- MARGIN_START (R459). Starts an eye measurement with a spare slicer. -/
  | marginStart (ag : Agent) (p : Fin 12) (l : Fin 8)
  /-- MARGIN_DONE (R459). An eye measurement completes and its result becomes valid. -/
  | marginDone (p : Fin 12) (l : Fin 8) (eyeH : BitVec 8) (eyeW : BitVec 8)
  /-- WRITE (R444). A received WRITE is checked, performed and acknowledged once published. -/
  | write (p : Fin 12)
  /-- WRITE_RED (R451). A received reduction write is reduced element by element and acknowledged. -/
  | writeRed (p : Fin 12)
  /-- READ (R444). A received READ is answered by READ_DATA. -/
  | read (p : Fin 12)
  /-- READ_DATA (R449). Received read data is written to the stage's LOCAL range. -/
  | readData (p : Fin 12)
  /-- ACK (R444). A received acknowledgement settles an outstanding message. -/
  | ack (p : Fin 12)
  /-- REFUSE (R450). A received refusal ends its stage or checkpoint write as refused. -/
  | refuse (p : Fin 12)
  /-- ARRIVE_MESSAGE (R444). A received ARRIVE performs ARRIVE by 1 on a local identifier. -/
  | arriveMessage (p : Fin 12)
  /-- EVENT_MESSAGE (R524). A received event record is written to the ring of record with REMOTE set. -/
  | eventMessage (p : Fin 12)
  /-- PM_REQ (R453). A received PM_REQ is answered with PM_RSP. -/
  | pmReq (p : Fin 12) (now : W64)
  /-- PM_RSP (R453). A received PM_RSP yields an offset that steps or slews the master. -/
  | pmRsp (p : Fin 12) (now : W64)
  /-- PM_REQ_SEND (R453). A module with a time source sends PM_REQ every 10 us. -/
  | pmReqSend (now : W64)
  /-- PM_UNLOCKED (R341). No alignment for 100 ms, or a large offset, clears LOCKED. -/
  | pmUnlocked (now : W64)
  /-- STAGE_TAKE (R446). A collective engine takes a stage descriptor and checks it. -/
  | stageTake (d : Fin 8) (c : Fin 64)
  /-- STAGE_LAUNCH (R449). A stage queues its first message at or after LAUNCH_T, or late. -/
  | stageLaunch (d : Fin 8) (c : Fin 64) (now : W64)
  /-- STAGE_COMPLETE (R449). A stage, all answered, sends RSYNC, writes STATUS and arrives on ASYNC. -/
  | stageComplete (d : Fin 8) (c : Fin 64)
  /-- STAGE_MESSAGE_TIMEOUT (R450). A message unanswered for 10 ms ends its stage LINK_FAILED. -/
  | stageMessageTimeout (d : Fin 8) (c : Fin 64) (now : W64)
  /-- CE_SEED_WRITE (R459). Writing LNK_CE_SEEDc reloads the context's 64 fold generators. -/
  | ceSeedWrite (ag : Agent) (d : Fin 8) (c : Fin 64) (v : W32)
  /-- BAR2_READ (R466). A host BAR2 read is performed at the stack controller and completed. -/
  | bar2Read (fn : Fin 64) (addr : BitVec 36) (len : Nat)
  /-- BAR2_WRITE (R466). A host BAR2 write is performed and published, or dropped if not lent. -/
  | bar2Write (fn : Fin 64) (addr : BitVec 36) (data : List Byte) (poisoned : Bool)
  /-- FUNCTION_LEVEL_RESET (R472). Resets a function's frames and applies context reset after its docket. -/
  | functionLevelReset (fn : Fin 64)
  /-- VF_DISABLE (R364). Disabling a virtual function resets its context and returns its resources. -/
  | vfDisable
  /-- WATCH_POLL (R469). An armed host watch polls its object every 1 us and fires an MSI-X vector. -/
  | watchPoll (fn : Fin 64) (n : BitVec 4) (now : W64)
  /-- LB_SUBMIT (R473). Submits the letterbox docket buffer to Moant. -/
  | lbSubmit (fn : Fin 64)
  /-- LB_ACK (R473). Clears REPLY and the reply buffer. -/
  | lbAck (fn : Fin 64)
  /-- SMB_READ_STATUS (R481). SMBus command 0x01 returns BUSY, REPLY and overflow. -/
  | smbReadStatus
  /-- SMB_BLOCK_WRITE (R481). SMBus command 0x02 appends bytes to the docket being assembled; with a bad PEC the row stands for any transaction that is NACKed (log 120). -/
  | smbBlockWrite (t : SmbWrite)
  /-- SMB_SUBMIT (R481). SMBus command 0x03 submits the assembled docket. -/
  | smbSubmit
  /-- SMB_BLOCK_READ (R481). SMBus command 0x04 returns the next reply bytes. -/
  | smbBlockRead (len : Nat)
  /-- SMB_REPLY_ACK (R481). SMBus command 0x05 acknowledges the reply. -/
  | smbReplyAck
  /-- SMB_DISCARD (R481). SMBus command 0x06 discards the assembly. -/
  | smbDiscard
  /-- SMB_ALERT_RESPONSE (R481). The module answers the Alert Response Address while a reply waits. -/
  | smbAlertResponse
  /-- CORE_LOAN (R369). Moves a core between contexts through the loan steps. -/
  | coreLoan (via : Via)
  /-- LOAN_QUIESCE_TIMEOUT (R372). Quiesce exceeds 1,000 us and the loan fails BUSY or forces. -/
  | loanQuiesceTimeout (k : Fin 128) (now : W64)
  /-- GRANULE_LOAN (R376). Moves a granule to a new owner by translation, optionally scrubbed. -/
  | granuleLoan (via : Via)
  /-- SYNC_LOAN (R377). Lends or withdraws one sync range. -/
  | syncLoan (via : Via)
  /-- SHARE_SET (R378). Sets a context's share of a link port or update engine. -/
  | shareSet (via : Via)
  /-- CAT_READ (R367). Writes catalogue entries to device memory. -/
  | catRead (via : Via)
  /-- SITE_SWAP (R19). Moves a logical core to the spare site, or marks it absent. -/
  | siteSwap (via : Via) (selfTestOk : Bool)
  /-- SELF_ID (R440). Sets the module identifier. -/
  | selfId (via : Via)
  /-- SELF_RANK (R440). Sets the module rank. -/
  | selfRank (via : Via)
  /-- LINK_JOB (R440). Sets a context's job number. -/
  | linkJob (via : Via)
  /-- ROUTE_SET (R441). Writes a route entry in every port's table. -/
  | routeSet (via : Via)
  /-- ROUTE_ALIAS (R441). Writes a rank alias entry in every port's table. -/
  | routeAlias (via : Via)
  /-- ROUTE_READ (R441). Writes route or alias entries to device memory. -/
  | routeRead (via : Via)
  /-- PM_SOURCE (R453). Selects the time-source port, or none. -/
  | pmSource (via : Via)
  /-- LINK_RETRAIN (R437). Retrains a port fully, letting dropped lanes rejoin. -/
  | linkRetrain (via : Via)
  /-- PM_STEP (R340). Steps the postmark master to the source's time. -/
  | pmStep (via : Via)
  /-- MODULE_RESET (R509). Requests a module reset after the reply, or arms it on standby. -/
  | moduleReset (via : Via)
  /-- REGION_RESET (R506). Resets one region and lifts any quarantine. -/
  | regionReset (via : Via)
  /-- CONTEXT_RESET (R366). Block-resets a context's cores, resets its sync objects and releases a freeze. -/
  | contextReset (via : Via)
  /-- CONTEXT_RESUME (R334). Releases a deadlock freeze of a context. -/
  | contextResume (via : Via)
  /-- CORE_RELEASE (R477). Starts a third-fault or block-reset core at START_PC. -/
  | coreRelease (via : Via)
  /-- RECOVER (R407). Reports a journal and rolls back an IN_FLIGHT chunk. -/
  | recover (via : Via)
  /-- BLOCK_RESET (R507). Applies block reset to one core, stack controller, link port or collective engine. -/
  | blockReset (via : Via)
  /-- CKPT_SCAN (R417). Reports validity, GEN and STEPNO of a buddy's two slots. -/
  | ckptScan (via : Via)
  /-- SYNC_DUMP (R337). Writes a post-mortem dump of a context without freezing it. -/
  | syncDump (via : Via)
  /-- DEADLETTER_READ (R360). Returns a core's 256-byte dead-letter box. -/
  | deadletterRead (via : Via)
  /-- POWER_LIMIT (R492). Sets the host power limit. -/
  | powerLimit (via : Via)
  /-- POWER_READ (R492). Reports input voltage, current, power and hottest sensor. -/
  | powerRead (via : Via)
  /-- SRM_READ (R493). Reads bytes of a strongroom record. -/
  | srmRead (via : Via)
  /-- SRM_UPDATE (R498). Checks and applies a signed strongroom package. -/
  | srmUpdate (via : Via)
  /-- FW_UPDATE (R478). Stages and checks a Moant image. -/
  | fwUpdate (via : Via)
  /-- NONVOLATILE_WRITE_DONE (R478). Writing a staged package to the non-volatile store reaches 100%. -/
  | nonvolatileWriteDone
  /-- FW_ACTIVATE (R477). Restarts Moant from the staged image after the reply. -/
  | fwActivate (via : Via)
  /-- FW_INFO (R477). Reports active and staged firmware levels and progress. -/
  | fwInfo (via : Via)
  /-- TEST_ENABLE (R499). Sets the strongroom's TEST_ENABLE. -/
  | testEnable (via : Via)
  /-- TEST_DISABLE (R530). Clears TEST_ENABLE and returns perturbation fields to reset. -/
  | testDisable (via : Via)
  /-- HOST_STATUS (R477). Reports link state, enabled VFs and 60 V presence. -/
  | hostStatus (via : Via)
  /-- ECHO (R477). Returns the parameter bytes unchanged. -/
  | echo (via : Via)
  /-- STANDBY_POWER_ON (R508). Arrival of 12 V standby starts power-on reset of the registrar. -/
  | standbyPowerOn
  /-- INPUT_QUALIFIED (R484). After 10 ms in window, stage 1 soft-starts. -/
  | inputQualified (now : W64) (mv : Nat)
  /-- RAILS_GOOD (R508). All rails are up and RAILS_GOOD is set. -/
  | railsGood
  /-- PERST (R462). PERST# assertion or deassertion drives a module reset. -/
  | perst (assert : Bool)
  /-- MODULE_RESET_START (R509). A module reset starts and holds every region. -/
  | moduleResetStart
  /-- MODULE_READY (R509). The module reset completes and the postmark starts at 0. -/
  | moduleReady
  /-- SRM_SAMPLE (R495). The strongroom samples input and sensors every 1 us and compares limits. -/
  | srmSample (m : PowerSample)
  /-- CLAMP_RELEASE (R496). A clamp is released after 100 us below every limit. -/
  | clampRelease (now : W64)
  /-- MODULE_ARBITRATION (R487). The module arbiter computes region grants every 10 us. -/
  | moduleArbitration (m : ArbInput)
  /-- BLOCK_GATING (R488, R489). Each 1 us a block over its grant is gated; `events` counts its activity events of that microsecond, by number. -/
  | blockGating (d : Fin 8) (b : Fin 18) (now : W64) (events : List Nat) (g : BitVec 4)
  /-- REGION_CLOCK_CHANGE (R490). A region clock takes step `step` once its rail voltage has reached the table value. -/
  | regionClockChange (d : Fin 8) (step : Fin 57) (now : W64)
  /-- CONSERVATOR_REPLAN (R501). After 10 minutes of operation, or on request, the margin table is re-planned. -/
  | conservatorReplan (d : Fin 8) (now : W64)
  /-- CSV_REPLAN_REQUEST (R512). Writing CSV_CTRL.REPLAN requests an immediate re-plan. -/
  | csvReplanRequest (ag : Agent) (d : Fin 8)
  /-- SLACK_MEASUREMENT_DONE (R500). A 50 us slack measurement of the region's replicas completes. -/
  | slackMeasurementDone (d : Fin 8) (now : W64) (slacks : List (BitVec 10))
  /-- CLOCK_LOST (R503). A region PLL loses lock and holds its region in reset. -/
  | clockLost (d : Fin 8)
  /-- STACK_TEMP_REPORT (R24). Each 1 ms a stack's temperature report is read and passed on. -/
  | stackTempReport (d : Fin 8) (j : Fin 2) (degC : BitVec 8)
  /-- MEMORY_UNCORRECTABLE (R280). An uncorrectable memory error poisons its sector. -/
  | memoryUncorrectable (pa : BitVec 41)
  /-- ECC_CORRECTED (R526). Once per 1 ms with corrections, a First record is raised. -/
  | eccCorrected (src : EccSource) (count : W32)
  /-- HOP_FORWARD (R517). An event hop forwards one record by class priority. -/
  | hopForward (hop : Option (Fin 8))
  /-- ROOT_RING_WRITE (R521). The root writes a record into a ring, publishes it and advances PRODUCER. -/
  | rootRingWrite
  /-- CONSUMER_POLL (R521). The root rereads a ring's CONSUMER every 100 ns while a record waits. -/
  | consumerPoll (f : Fin 64)
  /-- COUNTER_SNAPSHOT (R535). Every PERIOD each counter frame produces snapshot records. -/
  | counterSnapshot (d : Fin 8) (now : W64)
  /-- RESERVED_OPCODE (R150). A word with an undefined encoding reaches issue and either raises RESERVED_OPCODE or, when masked, is skipped as a NOP with CORE_CUSTAT.RSVD_SKIPPED set. -/
  | reservedOpcode (k : Fin 128) (w0 : W32) (w1 : W32) (w2 : W32) (w3 : W32)
  /-- INT_MGMT (R349). The management controller makes the INT_MGMT interrupt pending on a core. -/
  | intMgmt (k : Fin 128)
  /-- DOUBLE_BIT_ERROR (R526). A double-bit error in an on-core data store (memory cache, tray, queue, tile file, accumulator, weight register or core data memory) poisons the affected unit and raises POISON_CREATED. -/
  | doubleBitError (k : Fin 128) (store : DataStore)
  /-- CONTROL_STORE_UNCORRECTABLE (R526). An uncorrectable error in a control store (command queue, descriptor table, sorting frame, sync object) freezes the cell and raises CELL_FROZEN. -/
  | controlStoreUncorrectable (store : ControlStore)
  /-- CACHE_PARITY_ERROR (R526). A parity error in the translation cache or instruction cache discards the entry, which is walked or fetched again. -/
  | cacheParityError (k : Fin 128) (store : CacheStore)
  /-- ERROR_CHECK_AND_SCRUB (R545). The stack's background error check and scrub corrects a word and sets UPE_MEM_STAT.SCRUB_FIX. -/
  | errorCheckAndScrub (d : Fin 8) (j : Fin 2)
  /-- REFRESH_OVERRUN (R545). A per-bank refresh postponed beyond the HBM4 limit is forced and sets UPE_MEM_STAT.REFRESH_OVERRUN. -/
  | refreshOverrun (d : Fin 8) (j : Fin 2)
  /-- PARITY_MISMATCH_READ (R59). A register read finds a parity mismatch, ends in a bus error, freezes the configured unit and raises CFG_PARITY. -/
  | parityMismatchRead (ag : Agent) (off : BitVec 28)
  /-- VF_ENABLE (R364). The host enables virtual functions through SR-IOV, bringing their contexts into existence. -/
  | vfEnable (n : BitVec 6)
  /-- BAR2_RESIZE (R468). A Resizable BAR change of BAR2 size that no longer fits clears HOST_BAR2_BASE.GRANULE and sets CFG_REFUSED. -/
  | bar2Resize (vf : Bool) (gib : Nat)
  /-- MOANT_RUNNING (R508). About 150 ms after standby power-on, Moant is running and starts serving dockets marked S. -/
  | moantRunning
  deriving DecidableEq, Repr

end Sys2Proof
end

