-- ==== Sys2Proof/Decode.lean ====
section
/-! DEFINITION. The words of the core instructions (R131, R135 to R139, R161, R162, R166, R170, R179, R181, R203, R236 to R242, R256, R292, R313): what each word spells, and the words of each instruction. The rows of the opcode table carry no bits, so no table word spells a command. -/
namespace Sys2Proof

/-- A word of format M (R131): S, G, MAJOR, MINOR, OPF. -/
def wordM (i : Issue) (major : BitVec 7) (minor : BitVec 8) (opf : BitVec 12) : W32 :=
  BitVec.ofBool i.s ++ i.g ++ major ++ minor ++ opf

/-- A word of format I (R131): S, G, MAJOR, IMM. -/
def wordI (i : Issue) (major : BitVec 7) (imm : BitVec 20) : W32 :=
  BitVec.ofBool i.s ++ i.g ++ major ++ imm

/-- Word 0 of a bundle (R236): S, G, MAJOR, ARRAY, DLY, the bundle's own three bits, OPD. -/
def wordB (i : Issue) (major : BitVec 7) (arr : BitVec 2) (dly : BitVec 10) (own : BitVec 3) (opd : BitVec 5) : W32 :=
  BitVec.ofBool i.s ++ i.g ++ major ++ arr ++ dly ++ own ++ opd

/-- Whether an operand code names a T tile (R237). -/
def opdTile (c : BitVec 5) : Bool := decide (c.toNat < 8)
/-- Whether an operand code names a queue head. -/
def opdHead (c : BitVec 5) : Bool := (decide (8 ≤ c.toNat) && decide (c.toNat < 16)) || c.toNat == 0x15 || c.toNat == 0x16 || c.toNat == 0x17
/-- Whether an operand code names a queue tail. -/
def opdTail (c : BitVec 5) : Bool := (decide (0x10 ≤ c.toNat) && decide (c.toNat < 0x15)) || c.toNat == 0x16 || c.toNat == 0x17

/-- The field rules of TWLOAD (R238, R239). -/
def WeightLoad.legal (b : WeightLoad) : Bool :=
  if opdTile b.opd then decide (b.km1 = 0 ∧ b.nm1 = 0 ∧ b.etype = 0 ∧ b.se = 0) else opdHead b.opd

/-- The field rules of TSTREAM (R238, R240). -/
def Stream.legal (b : Stream) : Bool :=
  if opdTile b.opd then decide (b.km1 = 0 ∧ b.etype = 0 ∧ b.se = 0) else opdHead b.opd

/-- The field rules of TDRAIN (R238, R241). -/
def Drain.legal (b : Drain) : Bool :=
  (opdTile b.opd || opdTail b.opd) && decide (b.fmt ≠ 3) && (!b.smode || decide (b.shift = 0)) && (b.bias || decide (b.btile = 0))
    && (!b.sesrc || decide (b.fmt ≠ 2)) && ((!b.sesrc && decide (b.fmt ≠ 2)) || decide (b.se = 0))

/-- MAJOR 0x00, by MINOR. -/
def decode00 (i : Issue) (minor : Nat) (opf : BitVec 12) : Option Instr :=
  match minor with
  | 0 => if opf = 0 then some (.nop i) else none
  | 1 => some (.syscall i opf)
  | 2 => if opf = 0 then some (.retx i) else none
  | 3 => if opf = 0 then some (.ifence i) else none
  | 4 => if opf = 0 then some (.waiti i) else none
  | 8 => if opf.extractLsb' 10 2 = 0 then some (.rdsr i (opf.extractLsb' 0 10)) else none
  | 9 => if opf.extractLsb' 10 2 = 0 then some (.wrsr i (opf.extractLsb' 0 10)) else none
  | 10 => if opf = 0 then some (.rdpc i) else none
  | _ => none

/-- MAJOR 0x04, by MINOR. -/
def decode04 (i : Issue) (minor : Nat) (opf : BitVec 12) : Option Instr :=
  match minor with
  | 0 => if opf = 0 then some (.add i) else none
  | 1 => if opf = 0 then some (.sub i) else none
  | 2 => if opf = 0 then some (.mul i) else none
  | 3 => if opf = 0 then some (.mulh i) else none
  | 4 => if opf = 0 then some (.mulhu i) else none
  | 5 => if opf = 0 then some (.div i) else none
  | 6 => if opf = 0 then some (.divu i) else none
  | 7 => if opf = 0 then some (.rem i) else none
  | 8 => if opf = 0 then some (.remu i) else none
  | 16 => if opf = 0 then some (.andI i) else none
  | 17 => if opf = 0 then some (.orI i) else none
  | 18 => if opf = 0 then some (.xorI i) else none
  | 19 => if opf = 0 then some (.notI i) else none
  | 20 => if opf = 0 then some (.negI i) else none
  | 24 => if opf = 0 then some (.shl i) else none
  | 25 => if opf = 0 then some (.shr i) else none
  | 26 => if opf = 0 then some (.sar i) else none
  | 32 => if opf = 0 then some (.minI i) else none
  | 33 => if opf = 0 then some (.maxI i) else none
  | 34 => if opf = 0 then some (.minu i) else none
  | 35 => if opf = 0 then some (.maxu i) else none
  | 36 => if opf.extractLsb' 4 8 = 0 then some (.sel i (opf.extractLsb' 0 4)) else none
  | _ => none

/-- MAJOR 0x05, by MINOR. -/
def decode05 (i : Issue) (minor : Nat) (opf : BitVec 12) : Option Instr :=
  match minor with
  | 0 => if opf = 0 then some (.dup i) else none
  | 1 => if opf = 0 then some (.drop i) else none
  | 2 => if opf = 0 then some (.swap i) else none
  | 3 => if opf = 0 then some (.overI i) else none
  | 4 => if opf = 0 then some (.rot i) else none
  | 5 => if opf = 0 then some (.nip i) else none
  | 6 => if opf.extractLsb' 4 8 = 0 then some (.pick i (opf.extractLsb' 0 4)) else none
  | 16 => if opf = 0 then some (.vdup i) else none
  | 17 => if opf = 0 then some (.vdrop i) else none
  | 18 => if opf = 0 then some (.vswap i) else none
  | 19 => if opf = 0 then some (.vover i) else none
  | 20 => if opf = 0 then some (.vrot i) else none
  | _ => none

/-- MAJOR 0x06, by MINOR. -/
def decode06 (i : Issue) (minor : Nat) (opf : BitVec 12) : Option Instr :=
  match minor with
  | 0 => if opf.extractLsb' 4 4 = 0 ∧ (opf.extractLsb' 8 4).toNat < 10 then some (.icmp i (opf.extractLsb' 8 4) (opf.extractLsb' 0 4)) else none
  | _ => none

/-- MAJOR 0x07, by MINOR. -/
def decode07 (i : Issue) (minor : Nat) (opf : BitVec 12) : Option Instr :=
  match minor with
  | 0 => some (.pand i (opf.extractLsb' 8 4) (opf.extractLsb' 4 4) (opf.extractLsb' 0 4))
  | 1 => some (.por i (opf.extractLsb' 8 4) (opf.extractLsb' 4 4) (opf.extractLsb' 0 4))
  | 2 => some (.pxor i (opf.extractLsb' 8 4) (opf.extractLsb' 4 4) (opf.extractLsb' 0 4))
  | 3 => some (.pandn i (opf.extractLsb' 8 4) (opf.extractLsb' 4 4) (opf.extractLsb' 0 4))
  | 4 => if opf.extractLsb' 0 4 = 0 then some (.pnot i (opf.extractLsb' 8 4) (opf.extractLsb' 4 4)) else none
  | 5 => if opf.extractLsb' 0 4 = 0 then some (.pmov i (opf.extractLsb' 8 4) (opf.extractLsb' 4 4)) else none
  | 6 => if opf.extractLsb' 0 8 = 0 then some (.pset i (opf.extractLsb' 8 4)) else none
  | 7 => if opf.extractLsb' 0 8 = 0 then some (.pclr i (opf.extractLsb' 8 4)) else none
  | _ => none

/-- MAJOR 0x0A, by MINOR. -/
def decode0A (i : Issue) (minor : Nat) (opf : BitVec 12) : Option Instr :=
  match minor with
  | 0 => if opf = 0 then some (.bri i) else none
  | 1 => if opf = 0 then some (.calli i) else none
  | _ => none

/-- MAJOR 0x0C, by MINOR. -/
def decode0C (i : Issue) (minor : Nat) (opf : BitVec 12) : Option Instr :=
  match minor with
  | 0 => if opf = 0 then some (.ld i .b) else none
  | 1 => if opf = 0 then some (.ld i .bu) else none
  | 2 => if opf = 0 then some (.ld i .h) else none
  | 3 => if opf = 0 then some (.ld i .hu) else none
  | 4 => if opf = 0 then some (.ld i .w) else none
  | 5 => if opf = 0 then some (.ld i .wu) else none
  | 6 => if opf = 0 then some (.ld i .d) else none
  | 8 => if opf = 0 then some (.st i .b) else none
  | 9 => if opf = 0 then some (.st i .h) else none
  | 10 => if opf = 0 then some (.st i .w) else none
  | 11 => if opf = 0 then some (.st i .d) else none
  | 16 => if opf = 0 then some (.fld i .f32) else none
  | 17 => if opf = 0 then some (.fld i .f64) else none
  | 18 => if opf = 0 then some (.fst i .f32) else none
  | 19 => if opf = 0 then some (.fst i .f64) else none
  | _ => none

/-- MAJOR 0x0D, by MINOR. -/
def decode0D (i : Issue) (minor : Nat) (opf : BitVec 12) : Option Instr :=
  match minor with
  | 0 => if opf = 0 then some (.dld i .b) else none
  | 1 => if opf = 0 then some (.dld i .bu) else none
  | 2 => if opf = 0 then some (.dld i .h) else none
  | 3 => if opf = 0 then some (.dld i .hu) else none
  | 4 => if opf = 0 then some (.dld i .w) else none
  | 5 => if opf = 0 then some (.dld i .wu) else none
  | 6 => if opf = 0 then some (.dld i .d) else none
  | 8 => if opf = 0 then some (.dst i .b) else none
  | 9 => if opf = 0 then some (.dst i .h) else none
  | 10 => if opf = 0 then some (.dst i .w) else none
  | 11 => if opf = 0 then some (.dst i .d) else none
  | 16 => if opf = 0 then some (.fdld i .f32) else none
  | 17 => if opf = 0 then some (.fdld i .f64) else none
  | 18 => if opf = 0 then some (.fdst i .f32) else none
  | 19 => if opf = 0 then some (.fdst i .f64) else none
  | _ => none

/-- MAJOR 0x10, by MINOR. -/
def decode10 (i : Issue) (minor : Nat) (opf : BitVec 12) : Option Instr :=
  match minor with
  | 0 => if opf = 0 then some (.fadd i .f32) else none
  | 1 => if opf = 0 then some (.fadd i .f64) else none
  | 2 => if opf = 0 then some (.fsub i .f32) else none
  | 3 => if opf = 0 then some (.fsub i .f64) else none
  | 4 => if opf = 0 then some (.fmul i .f32) else none
  | 5 => if opf = 0 then some (.fmul i .f64) else none
  | 6 => if opf = 0 then some (.fdiv i .f32) else none
  | 7 => if opf = 0 then some (.fdiv i .f64) else none
  | 8 => if opf = 0 then some (.ffma i .f32) else none
  | 9 => if opf = 0 then some (.ffma i .f64) else none
  | 10 => if opf = 0 then some (.fsqrt i .f32) else none
  | 11 => if opf = 0 then some (.fsqrt i .f64) else none
  | 12 => if opf = 0 then some (.fmin i .f32) else none
  | 13 => if opf = 0 then some (.fmin i .f64) else none
  | 14 => if opf = 0 then some (.fmax i .f32) else none
  | 15 => if opf = 0 then some (.fmax i .f64) else none
  | 16 => if opf = 0 then some (.fneg i .f32) else none
  | 17 => if opf = 0 then some (.fneg i .f64) else none
  | 18 => if opf = 0 then some (.fabs i .f32) else none
  | 19 => if opf = 0 then some (.fabs i .f64) else none
  | 20 => if opf.extractLsb' 4 4 = 0 ∧ (opf.extractLsb' 8 4).toNat < 8 then some (.fcmp i .f32 (opf.extractLsb' 8 4) (opf.extractLsb' 0 4)) else none
  | 21 => if opf.extractLsb' 4 4 = 0 ∧ (opf.extractLsb' 8 4).toNat < 8 then some (.fcmp i .f64 (opf.extractLsb' 8 4) (opf.extractLsb' 0 4)) else none
  | 22 => if opf = 0 then some (.cvtif i .f32) else none
  | 23 => if opf = 0 then some (.cvtif i .f64) else none
  | 24 => if opf = 0 then some (.cvtfi i .f32) else none
  | 25 => if opf = 0 then some (.cvtfi i .f64) else none
  | 26 => if opf = 0 then some (.cvtff i .f32) else none
  | 27 => if opf = 0 then some (.cvtff i .f64) else none
  | 28 => if opf = 0 then some (.fmovi i .f32) else none
  | 29 => if opf = 0 then some (.fmovi i .f64) else none
  | 30 => if opf = 0 then some (.imovf i .f32) else none
  | 31 => if opf = 0 then some (.imovf i .f64) else none
  | _ => none

/-- MAJOR 0x20, by MINOR. -/
def decode20 (i : Issue) (minor : Nat) (opf : BitVec 12) : Option Instr :=
  match minor with
  | 0 => if opf = 0 then some (.vsetvl i) else none
  | 1 => if opf = 0 then some (.vgetvl i) else none
  | 2 => if opf = 0 then some (.vzero i) else none
  | _ => none

/-- MAJOR 0x21, by MINOR. -/
def decode21 (i : Issue) (minor : Nat) (opf : BitVec 12) : Option Instr :=
  match minor with
  | 0 => if opf = 0 then some (.vld i .w16) else none
  | 1 => if opf = 0 then some (.vld i .w32) else none
  | 2 => if opf = 0 then some (.vld i .w64) else none
  | 8 => if opf = 0 then some (.vst i .w16) else none
  | 9 => if opf = 0 then some (.vst i .w32) else none
  | 10 => if opf = 0 then some (.vst i .w64) else none
  | _ => none

/-- MAJOR 0x22, by MINOR. -/
def decode22 (i : Issue) (minor : Nat) (opf : BitVec 12) : Option Instr :=
  match minor with
  | 0 => if opf = 0 then some (.vadd i .f32) else none
  | 1 => if opf = 0 then some (.vsub i .f32) else none
  | 2 => if opf = 0 then some (.vmul i .f32) else none
  | 3 => if opf = 0 then some (.vdiv i .f32) else none
  | 4 => if opf = 0 then some (.vfma i .f32) else none
  | 5 => if opf = 0 then some (.vsqrt i .f32) else none
  | 6 => if opf = 0 then some (.vmin i .f32) else none
  | 7 => if opf = 0 then some (.vmax i .f32) else none
  | 8 => if opf = 0 then some (.vneg i .f32) else none
  | 9 => if opf = 0 then some (.vabs i .f32) else none
  | 10 => if opf.extractLsb' 0 8 = 0 ∧ (opf.extractLsb' 8 4).toNat < 8 then some (.vcmp i .f32 (opf.extractLsb' 8 4)) else none
  | 11 => if opf = 0 then some (.vsel i .f32) else none
  | 12 => if opf = 0 then some (.vexp i .f32) else none
  | 13 => if opf = 0 then some (.vlog i .f32) else none
  | 16 => if opf = 0 then some (.vrsum i .f32) else none
  | 17 => if opf = 0 then some (.vrmax i .f32) else none
  | 18 => if opf = 0 then some (.vrmin i .f32) else none
  | 24 => if opf = 0 then some (.vbcast i .f32) else none
  | 25 => if opf = 0 then some (.vlane i .f32) else none
  | 26 => if opf = 0 then some (.vins i .f32) else none
  | 27 => if opf = 0 then some (.vslidedn i .f32) else none
  | 28 => if opf = 0 then some (.vslideup i .f32) else none
  | 29 => if opf = 0 then some (.viota i .f32) else none
  | _ => none

/-- MAJOR 0x23, by MINOR. -/
def decode23 (i : Issue) (minor : Nat) (opf : BitVec 12) : Option Instr :=
  match minor with
  | 0 => if opf = 0 then some (.vadd i .f64) else none
  | 1 => if opf = 0 then some (.vsub i .f64) else none
  | 2 => if opf = 0 then some (.vmul i .f64) else none
  | 3 => if opf = 0 then some (.vdiv i .f64) else none
  | 4 => if opf = 0 then some (.vfma i .f64) else none
  | 5 => if opf = 0 then some (.vsqrt i .f64) else none
  | 6 => if opf = 0 then some (.vmin i .f64) else none
  | 7 => if opf = 0 then some (.vmax i .f64) else none
  | 8 => if opf = 0 then some (.vneg i .f64) else none
  | 9 => if opf = 0 then some (.vabs i .f64) else none
  | 10 => if opf.extractLsb' 0 8 = 0 ∧ (opf.extractLsb' 8 4).toNat < 8 then some (.vcmp i .f64 (opf.extractLsb' 8 4)) else none
  | 11 => if opf = 0 then some (.vsel i .f64) else none
  | 12 => if opf = 0 then some (.vexp i .f64) else none
  | 13 => if opf = 0 then some (.vlog i .f64) else none
  | 16 => if opf = 0 then some (.vrsum i .f64) else none
  | 17 => if opf = 0 then some (.vrmax i .f64) else none
  | 18 => if opf = 0 then some (.vrmin i .f64) else none
  | 24 => if opf = 0 then some (.vbcast i .f64) else none
  | 25 => if opf = 0 then some (.vlane i .f64) else none
  | 26 => if opf = 0 then some (.vins i .f64) else none
  | 27 => if opf = 0 then some (.vslidedn i .f64) else none
  | 28 => if opf = 0 then some (.vslideup i .f64) else none
  | 29 => if opf = 0 then some (.viota i .f64) else none
  | _ => none

/-- MAJOR 0x24, by MINOR. -/
def decode24 (i : Issue) (minor : Nat) (opf : BitVec 12) : Option Instr :=
  match minor with
  | 0 => if opf = 0 then some (.vadd i .k16) else none
  | 1 => if opf = 0 then some (.vsub i .k16) else none
  | 2 => if opf = 0 then some (.vmul i .k16) else none
  | 3 => if opf = 0 then some (.vdiv i .k16) else none
  | 4 => if opf = 0 then some (.vfma i .k16) else none
  | 5 => if opf = 0 then some (.vsqrt i .k16) else none
  | 6 => if opf = 0 then some (.vmin i .k16) else none
  | 7 => if opf = 0 then some (.vmax i .k16) else none
  | 8 => if opf = 0 then some (.vneg i .k16) else none
  | 9 => if opf = 0 then some (.vabs i .k16) else none
  | 10 => if opf.extractLsb' 0 8 = 0 ∧ (opf.extractLsb' 8 4).toNat < 8 then some (.vcmp i .k16 (opf.extractLsb' 8 4)) else none
  | 11 => if opf = 0 then some (.vsel i .k16) else none
  | 16 => if opf = 0 then some (.vrsum i .k16) else none
  | 17 => if opf = 0 then some (.vrmax i .k16) else none
  | 18 => if opf = 0 then some (.vrmin i .k16) else none
  | 24 => if opf = 0 then some (.vbcast i .k16) else none
  | 25 => if opf = 0 then some (.vlane i .k16) else none
  | 26 => if opf = 0 then some (.vins i .k16) else none
  | 27 => if opf = 0 then some (.vslidedn i .k16) else none
  | 28 => if opf = 0 then some (.vslideup i .k16) else none
  | 29 => if opf = 0 then some (.viota i .k16) else none
  | _ => none

/-- MAJOR 0x25, by MINOR. -/
def decode25 (i : Issue) (minor : Nat) (opf : BitVec 12) : Option Instr :=
  match minor with
  | 0 => if opf.extractLsb' 8 4 = 0 then some (.vcvtF32K16Lo i (opf.extractLsb' 0 8)) else none
  | 1 => if opf.extractLsb' 8 4 = 0 then some (.vcvtF32K16Hi i (opf.extractLsb' 0 8)) else none
  | 2 => if opf.extractLsb' 8 4 = 0 then some (.vcvtK16F32 i (opf.extractLsb' 0 8)) else none
  | 3 => if opf = 0 then some (.vcvtF64F32Lo i) else none
  | 4 => if opf = 0 then some (.vcvtF64F32Hi i) else none
  | 5 => if opf = 0 then some (.vcvtF32F64 i) else none
  | 6 => if opf = 0 then some (.vcvtI32F32 i) else none
  | 7 => if opf = 0 then some (.vcvtF32I32 i) else none
  | _ => none

/-- MAJOR 0x28, by MINOR. -/
def decode28 (i : Issue) (minor : Nat) (opf : BitVec 12) : Option Instr :=
  match minor with
  | 0 => if opf.extractLsb' 2 10 = 0 ∧ (opf.extractLsb' 0 2).toNat < 3 then some (.vqpop i (opf.extractLsb' 0 2)) else none
  | 1 => if opf.extractLsb' 2 10 = 0 ∧ (opf.extractLsb' 0 2).toNat < 3 then some (.vqpush i (opf.extractLsb' 0 2)) else none
  | _ => none

/-- MAJOR 0x29, by MINOR. -/
def decode29 (i : Issue) (minor : Nat) (opf : BitVec 12) : Option Instr :=
  match minor with
  | 0 => if opf = 0 then some (.vwredSum i) else none
  | 1 => if opf = 0 then some (.vwredSsq i) else none
  | 2 => if opf = 0 then some (.vwredLse i) else none
  | 3 => if opf = 0 then some (.vxent i) else none
  | _ => none

/-- MAJOR 0x2A, by MINOR. -/
def decode2A (i : Issue) (minor : Nat) (opf : BitVec 12) : Option Instr :=
  match minor with
  | 0 => if opf = 0 then some (.vfold i) else none
  | 1 => if opf = 0 then some (.vfoldSave i) else none
  | 2 => if opf = 0 then some (.vfoldLoad i) else none
  | _ => none

/-- MAJOR 0x2B, by MINOR. -/
def decode2B (i : Issue) (minor : Nat) (opf : BitVec 12) : Option Instr :=
  match minor with
  | 0 => if opf = 0 then some (.mcopy i) else none
  | _ => none

/-- MAJOR 0x40, by MINOR. -/
def decode40 (i : Issue) (minor : Nat) (opf : BitVec 12) : Option Instr :=
  match minor with
  | 0 => if opf = 0 then some (.aepost i) else none
  | 1 => if opf = 0 then some (.aewait i) else none
  | 2 => if opf = 0 then some (.pref i) else none
  | 4 => if opf = 0 then some (.aerec i) else none
  | 5 => if opf = 0 then some (.aerestart i) else none
  | _ => none

/-- MAJOR 0x48, by MINOR. -/
def decode48 (i : Issue) (minor : Nat) (opf : BitVec 12) : Option Instr :=
  match minor with
  | 0 => if opf = 0 then some (.arrive i) else none
  | 1 => if opf = 0 then some (.depart i) else none
  | 2 => if opf = 0 then some (.wait i) else none
  | 3 => if opf = 0 then some (.signalAt i) else none
  | 4 => if opf = 0 then some (.sreset i) else none
  | 5 => if opf = 0 then some (.sread i) else none
  | _ => none

/-- MAJOR 0x49, by MINOR. -/
def decode49 (i : Issue) (minor : Nat) (opf : BitVec 12) : Option Instr :=
  match minor with
  | 0 => if opf = 0 then some (.rdpm i) else none
  | 1 => if opf = 0 then some (.swaitT i) else none
  | 2 => if opf.extractLsb' 2 10 = 0 then some (.tstartAt i (opf.extractLsb' 0 2)) else none
  | _ => none

/-- MAJOR 0x50, by MINOR. -/
def decode50 (i : Issue) (minor : Nat) (opf : BitVec 12) : Option Instr :=
  match minor with
  | 0 => if opf = 0 then some (.fence i) else none
  | 1 => if opf = 0 then some (.fenceAe i) else none
  | 2 => if opf = 0 then some (.acquire i) else none
  | 8 => if opf = 0 then some (.mcinv i) else none
  | 9 => if opf = 0 then some (.mccln i) else none
  | 10 => if opf = 0 then some (.mccli i) else none
  | 16 => if opf = 0 then some (.mcinvAll i) else none
  | 17 => if opf = 0 then some (.mcclnAll i) else none
  | 18 => if opf = 0 then some (.trayinv i) else none
  | 24 => if opf = 0 then some (.xinv i) else none
  | 25 => if opf = 0 then some (.xinvA i) else none
  | _ => none

/-- MAJOR 0x58, by MINOR. -/
def decode58 (i : Issue) (minor : Nat) (opf : BitVec 12) : Option Instr :=
  match minor with
  | 0 => if opf.extractLsb' 0 6 = 0 ∧ (opf.extractLsb' 6 4).toNat < 10 then some (.tcfg i (opf.extractLsb' 10 2) (opf.extractLsb' 6 4)) else none
  | 1 => if opf.extractLsb' 0 6 = 0 ∧ (opf.extractLsb' 6 4).toNat < 10 then some (.trel i (opf.extractLsb' 10 2) (opf.extractLsb' 6 4)) else none
  | 2 => if opf = 0 then some (.trela i) else none
  | 3 => if opf.extractLsb' 0 6 = 0 ∧ (opf.extractLsb' 6 4).toNat < 10 then some (.tzero i (opf.extractLsb' 10 2) (opf.extractLsb' 6 4)) else none
  | 4 => if opf = 0 then some (.tquiesce i) else none
  | _ => none

/-- MAJOR 0x59, by MINOR. -/
def decode59 (i : Issue) (minor : Nat) (opf : BitVec 12) : Option Instr :=
  match minor with
  | 0 => if opf.extractLsb' 0 6 = 0 ∧ (opf.extractLsb' 6 4).toNat < 10 then some (.tsave i (opf.extractLsb' 10 2) (opf.extractLsb' 6 4)) else none
  | 1 => if opf.extractLsb' 0 6 = 0 ∧ (opf.extractLsb' 6 4).toNat < 10 then some (.trestore i (opf.extractLsb' 10 2) (opf.extractLsb' 6 4)) else none
  | _ => none

/-- MAJOR 0x5A, by MINOR. -/
def decode5A (i : Issue) (minor : Nat) (opf : BitVec 12) : Option Instr :=
  match minor with
  | 0 => if opf.extractLsb' 0 2 = 0 then some (.tmove i (opf.extractLsb' 10 2) (opf.extractLsb' 7 3) (opf.extractLsb' 5 2) (opf.extractLsb' 2 3)) else none
  | _ => none

/-- A word with a MAJOR outside the bundles, as a control unit of core `k` decodes it (R131, R136). -/
def decodeWord (k : Fin 128) (w : W32) : Option Instr :=
  let i : Issue := ⟨k, w.extractLsb' 27 4, w.getLsbD 31⟩
  let minor := (w.extractLsb' 12 8).toNat
  let opf := w.extractLsb' 0 12
  let imm := w.extractLsb' 0 20
  match (w.extractLsb' 20 7).toNat with
  | 0 => decode00 i minor opf
  | 1 => some (.pushi i imm)
  | 2 => some (.pushu i imm)
  | 3 => some (.addi i imm)
  | 4 => decode04 i minor opf
  | 5 => decode05 i minor opf
  | 6 => decode06 i minor opf
  | 7 => decode07 i minor opf
  | 8 => some (.br i imm)
  | 9 => some (.call i imm)
  | 10 => decode0A i minor opf
  | 12 => decode0C i minor opf
  | 13 => decode0D i minor opf
  | 16 => decode10 i minor opf
  | 32 => decode20 i minor opf
  | 33 => decode21 i minor opf
  | 34 => decode22 i minor opf
  | 35 => decode23 i minor opf
  | 36 => decode24 i minor opf
  | 37 => decode25 i minor opf
  | 40 => decode28 i minor opf
  | 41 => decode29 i minor opf
  | 42 => decode2A i minor opf
  | 43 => decode2B i minor opf
  | 64 => decode40 i minor opf
  | 72 => decode48 i minor opf
  | 73 => decode49 i minor opf
  | 80 => decode50 i minor opf
  | 88 => decode58 i minor opf
  | 89 => decode59 i minor opf
  | 90 => decode5A i minor opf
  | _ => none

/-- A bundle (R236 to R242). -/
def decodeBundle (k : Fin 128) (w0 w1 w2 w3 : W32) : Option Instr :=
  let i : Issue := ⟨k, w0.extractLsb' 27 4, w0.getLsbD 31⟩
  let arr := w0.extractLsb' 18 2
  let dly := w0.extractLsb' 8 10
  let opd := w0.extractLsb' 0 5
  if w3 ≠ 0 then none
  else match (w0.extractLsb' 20 7).toNat with
  | 0x60 =>
    let b : WeightLoad := ⟨arr, dly, opd, w1.extractLsb' 0 7, w1.extractLsb' 8 7, w1.extractLsb' 16 2, w1.extractLsb' 24 8⟩
    if w0.extractLsb' 5 3 = 0 ∧ w1.getLsbD 7 = false ∧ w1.getLsbD 15 = false ∧ w1.extractLsb' 18 6 = 0 ∧ w2 = 0 ∧ b.legal = true then
      some (.twload i b) else none
  | 0x61 =>
    let b : Stream := ⟨arr, dly, opd, w0.getLsbD 5, w0.extractLsb' 6 1, w1.extractLsb' 0 8, w1.extractLsb' 8 9,
      w2.extractLsb' 0 7, w2.extractLsb' 16 2, w2.extractLsb' 24 8⟩
    if w0.getLsbD 7 = false ∧ w1.extractLsb' 17 15 = 0 ∧ w2.extractLsb' 7 9 = 0 ∧ w2.extractLsb' 18 6 = 0 ∧ b.legal = true then
      some (.tstream i b) else none
  | 0x62 =>
    let b : Drain := ⟨arr, dly, opd, w0.extractLsb' 5 1, w0.extractLsb' 6 2, w1.extractLsb' 0 8, w1.extractLsb' 8 9,
      w1.getLsbD 17, w1.extractLsb' 18 8, w1.getLsbD 26, w1.extractLsb' 27 3, w1.getLsbD 30, w1.getLsbD 31, w2.extractLsb' 0 8⟩
    if w2.extractLsb' 8 24 = 0 ∧ b.legal = true then some (.tdrain i b) else none
  | 0x63 =>
    if w0.extractLsb' 5 3 = 0 ∧ w1.extractLsb' 3 29 = 0 ∧ w2 = 0 ∧ opdHead opd = true then
      some (.tfill i arr dly opd (w1.extractLsb' 0 3)) else none
  | 0x64 =>
    if w0.extractLsb' 5 3 = 0 ∧ w1.extractLsb' 3 29 = 0 ∧ w2 = 0 ∧ opdTail opd = true then
      some (.temit i arr dly opd (w1.extractLsb' 0 3)) else none
  | _ => none

/-- Whether a word leads a bundle (R135). -/
def isLeader (w : W32) : Bool := decide (0x60 ≤ (w.extractLsb' 20 7).toNat) && decide ((w.extractLsb' 20 7).toNat < 0x70)

/-- The instruction that the words at an address spell; none for a reserved encoding (R150, R238). -/
def decodeCore (k : Fin 128) (aligned16 : Bool) (w0 w1 w2 w3 : W32) : Option Instr :=
  if isLeader w0 then (if aligned16 then decodeBundle k w0 w1 w2 w3 else none) else decodeWord k w0

/-- The words of a core instruction, lowest address first; none for every other command. -/
def encode : Instr → Option (List W32)
  | .nop i => some [wordM i 0x0 0x0 0]
  | .syscall i code => some [wordM i 0x0 0x1 code]
  | .retx i => some [wordM i 0x0 0x2 0]
  | .ifence i => some [wordM i 0x0 0x3 0]
  | .waiti i => some [wordM i 0x0 0x4 0]
  | .rdsr i n => some [wordM i 0x0 0x8 (0#2 ++ n)]
  | .wrsr i n => some [wordM i 0x0 0x9 (0#2 ++ n)]
  | .rdpc i => some [wordM i 0x0 0xA 0]
  | .pushi i imm => some [wordI i 0x1 imm]
  | .pushu i imm => some [wordI i 0x2 imm]
  | .addi i imm => some [wordI i 0x3 imm]
  | .add i => some [wordM i 0x4 0x0 0]
  | .sub i => some [wordM i 0x4 0x1 0]
  | .mul i => some [wordM i 0x4 0x2 0]
  | .mulh i => some [wordM i 0x4 0x3 0]
  | .mulhu i => some [wordM i 0x4 0x4 0]
  | .div i => some [wordM i 0x4 0x5 0]
  | .divu i => some [wordM i 0x4 0x6 0]
  | .rem i => some [wordM i 0x4 0x7 0]
  | .remu i => some [wordM i 0x4 0x8 0]
  | .andI i => some [wordM i 0x4 0x10 0]
  | .orI i => some [wordM i 0x4 0x11 0]
  | .xorI i => some [wordM i 0x4 0x12 0]
  | .notI i => some [wordM i 0x4 0x13 0]
  | .negI i => some [wordM i 0x4 0x14 0]
  | .shl i => some [wordM i 0x4 0x18 0]
  | .shr i => some [wordM i 0x4 0x19 0]
  | .sar i => some [wordM i 0x4 0x1A 0]
  | .minI i => some [wordM i 0x4 0x20 0]
  | .maxI i => some [wordM i 0x4 0x21 0]
  | .minu i => some [wordM i 0x4 0x22 0]
  | .maxu i => some [wordM i 0x4 0x23 0]
  | .sel i pn => some [wordM i 0x4 0x24 (0#8 ++ pn)]
  | .dup i => some [wordM i 0x5 0x0 0]
  | .drop i => some [wordM i 0x5 0x1 0]
  | .swap i => some [wordM i 0x5 0x2 0]
  | .overI i => some [wordM i 0x5 0x3 0]
  | .rot i => some [wordM i 0x5 0x4 0]
  | .nip i => some [wordM i 0x5 0x5 0]
  | .pick i k => some [wordM i 0x5 0x6 (0#8 ++ k)]
  | .vdup i => some [wordM i 0x5 0x10 0]
  | .vdrop i => some [wordM i 0x5 0x11 0]
  | .vswap i => some [wordM i 0x5 0x12 0]
  | .vover i => some [wordM i 0x5 0x13 0]
  | .vrot i => some [wordM i 0x5 0x14 0]
  | .icmp i cc pt => some [wordM i 0x6 0x0 (cc ++ 0#4 ++ pt)]
  | .pand i pd pa pb => some [wordM i 0x7 0x0 (pd ++ pa ++ pb)]
  | .por i pd pa pb => some [wordM i 0x7 0x1 (pd ++ pa ++ pb)]
  | .pxor i pd pa pb => some [wordM i 0x7 0x2 (pd ++ pa ++ pb)]
  | .pandn i pd pa pb => some [wordM i 0x7 0x3 (pd ++ pa ++ pb)]
  | .pnot i pd pa => some [wordM i 0x7 0x4 (pd ++ pa ++ 0#4)]
  | .pmov i pd pa => some [wordM i 0x7 0x5 (pd ++ pa ++ 0#4)]
  | .pset i pd => some [wordM i 0x7 0x6 (pd ++ 0#8)]
  | .pclr i pd => some [wordM i 0x7 0x7 (pd ++ 0#8)]
  | .br i imm => some [wordI i 0x8 imm]
  | .call i imm => some [wordI i 0x9 imm]
  | .bri i => some [wordM i 0xA 0x0 0]
  | .calli i => some [wordM i 0xA 0x1 0]
  | .ld i .b => some [wordM i 0xC 0x0 0]
  | .ld i .bu => some [wordM i 0xC 0x1 0]
  | .ld i .h => some [wordM i 0xC 0x2 0]
  | .ld i .hu => some [wordM i 0xC 0x3 0]
  | .ld i .w => some [wordM i 0xC 0x4 0]
  | .ld i .wu => some [wordM i 0xC 0x5 0]
  | .ld i .d => some [wordM i 0xC 0x6 0]
  | .st i .b => some [wordM i 0xC 0x8 0]
  | .st i .h => some [wordM i 0xC 0x9 0]
  | .st i .w => some [wordM i 0xC 0xA 0]
  | .st i .d => some [wordM i 0xC 0xB 0]
  | .fld i .f32 => some [wordM i 0xC 0x10 0]
  | .fld i .f64 => some [wordM i 0xC 0x11 0]
  | .fst i .f32 => some [wordM i 0xC 0x12 0]
  | .fst i .f64 => some [wordM i 0xC 0x13 0]
  | .dld i .b => some [wordM i 0xD 0x0 0]
  | .dld i .bu => some [wordM i 0xD 0x1 0]
  | .dld i .h => some [wordM i 0xD 0x2 0]
  | .dld i .hu => some [wordM i 0xD 0x3 0]
  | .dld i .w => some [wordM i 0xD 0x4 0]
  | .dld i .wu => some [wordM i 0xD 0x5 0]
  | .dld i .d => some [wordM i 0xD 0x6 0]
  | .dst i .b => some [wordM i 0xD 0x8 0]
  | .dst i .h => some [wordM i 0xD 0x9 0]
  | .dst i .w => some [wordM i 0xD 0xA 0]
  | .dst i .d => some [wordM i 0xD 0xB 0]
  | .fdld i .f32 => some [wordM i 0xD 0x10 0]
  | .fdld i .f64 => some [wordM i 0xD 0x11 0]
  | .fdst i .f32 => some [wordM i 0xD 0x12 0]
  | .fdst i .f64 => some [wordM i 0xD 0x13 0]
  | .fadd i .f32 => some [wordM i 0x10 0x0 0]
  | .fadd i .f64 => some [wordM i 0x10 0x1 0]
  | .fsub i .f32 => some [wordM i 0x10 0x2 0]
  | .fsub i .f64 => some [wordM i 0x10 0x3 0]
  | .fmul i .f32 => some [wordM i 0x10 0x4 0]
  | .fmul i .f64 => some [wordM i 0x10 0x5 0]
  | .fdiv i .f32 => some [wordM i 0x10 0x6 0]
  | .fdiv i .f64 => some [wordM i 0x10 0x7 0]
  | .ffma i .f32 => some [wordM i 0x10 0x8 0]
  | .ffma i .f64 => some [wordM i 0x10 0x9 0]
  | .fsqrt i .f32 => some [wordM i 0x10 0xA 0]
  | .fsqrt i .f64 => some [wordM i 0x10 0xB 0]
  | .fmin i .f32 => some [wordM i 0x10 0xC 0]
  | .fmin i .f64 => some [wordM i 0x10 0xD 0]
  | .fmax i .f32 => some [wordM i 0x10 0xE 0]
  | .fmax i .f64 => some [wordM i 0x10 0xF 0]
  | .fneg i .f32 => some [wordM i 0x10 0x10 0]
  | .fneg i .f64 => some [wordM i 0x10 0x11 0]
  | .fabs i .f32 => some [wordM i 0x10 0x12 0]
  | .fabs i .f64 => some [wordM i 0x10 0x13 0]
  | .fcmp i .f32 cc pt => some [wordM i 0x10 0x14 (cc ++ 0#4 ++ pt)]
  | .fcmp i .f64 cc pt => some [wordM i 0x10 0x15 (cc ++ 0#4 ++ pt)]
  | .cvtif i .f32 => some [wordM i 0x10 0x16 0]
  | .cvtif i .f64 => some [wordM i 0x10 0x17 0]
  | .cvtfi i .f32 => some [wordM i 0x10 0x18 0]
  | .cvtfi i .f64 => some [wordM i 0x10 0x19 0]
  | .cvtff i .f32 => some [wordM i 0x10 0x1A 0]
  | .cvtff i .f64 => some [wordM i 0x10 0x1B 0]
  | .fmovi i .f32 => some [wordM i 0x10 0x1C 0]
  | .fmovi i .f64 => some [wordM i 0x10 0x1D 0]
  | .imovf i .f32 => some [wordM i 0x10 0x1E 0]
  | .imovf i .f64 => some [wordM i 0x10 0x1F 0]
  | .vsetvl i => some [wordM i 0x20 0x0 0]
  | .vgetvl i => some [wordM i 0x20 0x1 0]
  | .vzero i => some [wordM i 0x20 0x2 0]
  | .vld i .w16 => some [wordM i 0x21 0x0 0]
  | .vld i .w32 => some [wordM i 0x21 0x1 0]
  | .vld i .w64 => some [wordM i 0x21 0x2 0]
  | .vst i .w16 => some [wordM i 0x21 0x8 0]
  | .vst i .w32 => some [wordM i 0x21 0x9 0]
  | .vst i .w64 => some [wordM i 0x21 0xA 0]
  | .vcvtF32K16Lo i se => some [wordM i 0x25 0x0 (0#4 ++ se)]
  | .vcvtF32K16Hi i se => some [wordM i 0x25 0x1 (0#4 ++ se)]
  | .vcvtK16F32 i se => some [wordM i 0x25 0x2 (0#4 ++ se)]
  | .vcvtF64F32Lo i => some [wordM i 0x25 0x3 0]
  | .vcvtF64F32Hi i => some [wordM i 0x25 0x4 0]
  | .vcvtF32F64 i => some [wordM i 0x25 0x5 0]
  | .vcvtI32F32 i => some [wordM i 0x25 0x6 0]
  | .vcvtF32I32 i => some [wordM i 0x25 0x7 0]
  | .vadd i .f32 => some [wordM i 0x22 0x0 0]
  | .vadd i .f64 => some [wordM i 0x23 0x0 0]
  | .vadd i .k16 => some [wordM i 0x24 0x0 0]
  | .vsub i .f32 => some [wordM i 0x22 0x1 0]
  | .vsub i .f64 => some [wordM i 0x23 0x1 0]
  | .vsub i .k16 => some [wordM i 0x24 0x1 0]
  | .vmul i .f32 => some [wordM i 0x22 0x2 0]
  | .vmul i .f64 => some [wordM i 0x23 0x2 0]
  | .vmul i .k16 => some [wordM i 0x24 0x2 0]
  | .vdiv i .f32 => some [wordM i 0x22 0x3 0]
  | .vdiv i .f64 => some [wordM i 0x23 0x3 0]
  | .vdiv i .k16 => some [wordM i 0x24 0x3 0]
  | .vfma i .f32 => some [wordM i 0x22 0x4 0]
  | .vfma i .f64 => some [wordM i 0x23 0x4 0]
  | .vfma i .k16 => some [wordM i 0x24 0x4 0]
  | .vsqrt i .f32 => some [wordM i 0x22 0x5 0]
  | .vsqrt i .f64 => some [wordM i 0x23 0x5 0]
  | .vsqrt i .k16 => some [wordM i 0x24 0x5 0]
  | .vmin i .f32 => some [wordM i 0x22 0x6 0]
  | .vmin i .f64 => some [wordM i 0x23 0x6 0]
  | .vmin i .k16 => some [wordM i 0x24 0x6 0]
  | .vmax i .f32 => some [wordM i 0x22 0x7 0]
  | .vmax i .f64 => some [wordM i 0x23 0x7 0]
  | .vmax i .k16 => some [wordM i 0x24 0x7 0]
  | .vneg i .f32 => some [wordM i 0x22 0x8 0]
  | .vneg i .f64 => some [wordM i 0x23 0x8 0]
  | .vneg i .k16 => some [wordM i 0x24 0x8 0]
  | .vabs i .f32 => some [wordM i 0x22 0x9 0]
  | .vabs i .f64 => some [wordM i 0x23 0x9 0]
  | .vabs i .k16 => some [wordM i 0x24 0x9 0]
  | .vcmp i .f32 cc => some [wordM i 0x22 0xA (cc ++ 0#8)]
  | .vcmp i .f64 cc => some [wordM i 0x23 0xA (cc ++ 0#8)]
  | .vcmp i .k16 cc => some [wordM i 0x24 0xA (cc ++ 0#8)]
  | .vsel i .f32 => some [wordM i 0x22 0xB 0]
  | .vsel i .f64 => some [wordM i 0x23 0xB 0]
  | .vsel i .k16 => some [wordM i 0x24 0xB 0]
  | .vexp i .f32 => some [wordM i 0x22 0xC 0]
  | .vexp i .f64 => some [wordM i 0x23 0xC 0]
  | .vexp i .k16 => some [wordM i 0x24 0xC 0]
  | .vlog i .f32 => some [wordM i 0x22 0xD 0]
  | .vlog i .f64 => some [wordM i 0x23 0xD 0]
  | .vlog i .k16 => some [wordM i 0x24 0xD 0]
  | .vrsum i .f32 => some [wordM i 0x22 0x10 0]
  | .vrsum i .f64 => some [wordM i 0x23 0x10 0]
  | .vrsum i .k16 => some [wordM i 0x24 0x10 0]
  | .vrmax i .f32 => some [wordM i 0x22 0x11 0]
  | .vrmax i .f64 => some [wordM i 0x23 0x11 0]
  | .vrmax i .k16 => some [wordM i 0x24 0x11 0]
  | .vrmin i .f32 => some [wordM i 0x22 0x12 0]
  | .vrmin i .f64 => some [wordM i 0x23 0x12 0]
  | .vrmin i .k16 => some [wordM i 0x24 0x12 0]
  | .vbcast i .f32 => some [wordM i 0x22 0x18 0]
  | .vbcast i .f64 => some [wordM i 0x23 0x18 0]
  | .vbcast i .k16 => some [wordM i 0x24 0x18 0]
  | .vlane i .f32 => some [wordM i 0x22 0x19 0]
  | .vlane i .f64 => some [wordM i 0x23 0x19 0]
  | .vlane i .k16 => some [wordM i 0x24 0x19 0]
  | .vins i .f32 => some [wordM i 0x22 0x1A 0]
  | .vins i .f64 => some [wordM i 0x23 0x1A 0]
  | .vins i .k16 => some [wordM i 0x24 0x1A 0]
  | .vslidedn i .f32 => some [wordM i 0x22 0x1B 0]
  | .vslidedn i .f64 => some [wordM i 0x23 0x1B 0]
  | .vslidedn i .k16 => some [wordM i 0x24 0x1B 0]
  | .vslideup i .f32 => some [wordM i 0x22 0x1C 0]
  | .vslideup i .f64 => some [wordM i 0x23 0x1C 0]
  | .vslideup i .k16 => some [wordM i 0x24 0x1C 0]
  | .viota i .f32 => some [wordM i 0x22 0x1D 0]
  | .viota i .f64 => some [wordM i 0x23 0x1D 0]
  | .viota i .k16 => some [wordM i 0x24 0x1D 0]
  | .vqpop i c => some [wordM i 0x28 0x0 (0#10 ++ c)]
  | .vqpush i c => some [wordM i 0x28 0x1 (0#10 ++ c)]
  | .vwredSum i => some [wordM i 0x29 0x0 0]
  | .vwredSsq i => some [wordM i 0x29 0x1 0]
  | .vwredLse i => some [wordM i 0x29 0x2 0]
  | .vxent i => some [wordM i 0x29 0x3 0]
  | .vfold i => some [wordM i 0x2A 0x0 0]
  | .vfoldSave i => some [wordM i 0x2A 0x1 0]
  | .vfoldLoad i => some [wordM i 0x2A 0x2 0]
  | .mcopy i => some [wordM i 0x2B 0x0 0]
  | .tcfg i a tile => some [wordM i 0x58 0x0 (a ++ tile ++ 0#6)]
  | .trel i a tile => some [wordM i 0x58 0x1 (a ++ tile ++ 0#6)]
  | .trela i => some [wordM i 0x58 0x2 0]
  | .tzero i a tile => some [wordM i 0x58 0x3 (a ++ tile ++ 0#6)]
  | .tquiesce i => some [wordM i 0x58 0x4 0]
  | .tsave i a tile => some [wordM i 0x59 0x0 (a ++ tile ++ 0#6)]
  | .trestore i a tile => some [wordM i 0x59 0x1 (a ++ tile ++ 0#6)]
  | .tmove i sa st da dt => some [wordM i 0x5A 0x0 (sa ++ st ++ da ++ dt ++ 0#2)]
  | .aepost i => some [wordM i 0x40 0x0 0]
  | .aewait i => some [wordM i 0x40 0x1 0]
  | .pref i => some [wordM i 0x40 0x2 0]
  | .aerec i => some [wordM i 0x40 0x4 0]
  | .aerestart i => some [wordM i 0x40 0x5 0]
  | .fence i => some [wordM i 0x50 0x0 0]
  | .fenceAe i => some [wordM i 0x50 0x1 0]
  | .acquire i => some [wordM i 0x50 0x2 0]
  | .mcinv i => some [wordM i 0x50 0x8 0]
  | .mccln i => some [wordM i 0x50 0x9 0]
  | .mccli i => some [wordM i 0x50 0xA 0]
  | .mcinvAll i => some [wordM i 0x50 0x10 0]
  | .mcclnAll i => some [wordM i 0x50 0x11 0]
  | .trayinv i => some [wordM i 0x50 0x12 0]
  | .xinv i => some [wordM i 0x50 0x18 0]
  | .xinvA i => some [wordM i 0x50 0x19 0]
  | .arrive i => some [wordM i 0x48 0x0 0]
  | .depart i => some [wordM i 0x48 0x1 0]
  | .wait i => some [wordM i 0x48 0x2 0]
  | .signalAt i => some [wordM i 0x48 0x3 0]
  | .sreset i => some [wordM i 0x48 0x4 0]
  | .sread i => some [wordM i 0x48 0x5 0]
  | .rdpm i => some [wordM i 0x49 0x0 0]
  | .swaitT i => some [wordM i 0x49 0x1 0]
  | .tstartAt i a => some [wordM i 0x49 0x2 (0#10 ++ a)]
  | .twload i b => some [wordB i 0x60 b.arr b.dly 0 b.opd, b.se ++ 0#6 ++ b.etype ++ 0#1 ++ b.nm1 ++ 0#1 ++ b.km1, 0, 0]
  | .tstream i b => some [wordB i 0x61 b.arr b.dly (0#1 ++ b.acc ++ BitVec.ofBool b.swap) b.opd, 0#15 ++ b.rows ++ b.row0,
      b.se ++ 0#6 ++ b.etype ++ 0#9 ++ b.km1, 0]
  | .tdrain i b => some [wordB i 0x62 b.arr b.dly (b.fmt ++ b.acc) b.opd,
      BitVec.ofBool b.sesrc ++ BitVec.ofBool b.clip ++ b.btile ++ BitVec.ofBool b.bias ++ b.shift ++ BitVec.ofBool b.smode ++ b.rows ++ b.row0,
      0#24 ++ b.se, 0]
  | .tfill i a dly opd tile => some [wordB i 0x63 a dly 0 opd, 0#29 ++ tile, 0, 0]
  | .temit i a dly opd tile => some [wordB i 0x64 a dly 0 opd, 0#29 ++ tile, 0, 0]
  | _ => none

/-- The first word of an instruction: what RESERVED_OPCODE reports (R357). -/
def firstWord (i : Instr) : W32 := match encode i with
  | some (w :: _) => w
  | _ => 0

/-- The command that a word of the opcode table spells: the table gives no row any bits, so none. -/
def decodeTableWord (_nbits _w : Nat) : Option Instr := none

end Sys2Proof
end

