-- ==== Sys2Proof/Machine/Table.lean ====
section
/-! DEFINITION. Reading and writing sparse tables and byte memories, bit fields, byte lists and the two CRCs. -/
namespace Sys2Proof.Machine

/-- What key `k` holds; `d` when nothing was stored. -/
def tget {κ α : Type} [DecidableEq κ] : Tbl κ α → κ → α → α
  | [], _, d => d
  | (k', v) :: r, k, d => if k' = k then v else tget r k d

/-- Store `v` under `k`, in place when `k` is present. -/
def tset {κ α : Type} [DecidableEq κ] : Tbl κ α → κ → α → Tbl κ α
  | [], k, v => [(k, v)]
  | (k', v') :: r, k, v => if k' = k then (k, v) :: r else (k', v') :: tset r k v

/-- Change what `k` holds by `f`. -/
def tmod {κ α : Type} [DecidableEq κ] (t : Tbl κ α) (k : κ) (d : α) (f : α → α) : Tbl κ α :=
  tset t k (f (tget t k d))

/-- Forget what `k` holds, so that it reads as its default again. -/
def tdel {κ α : Type} [DecidableEq κ] : Tbl κ α → κ → Tbl κ α
  | [], _ => []
  | (k', v') :: r, k => if k' = k then tdel r k else (k', v') :: tdel r k

/-- Forget every key for which `p` holds. -/
def tdelWhere {κ α : Type} (t : Tbl κ α) (p : κ → Bool) : Tbl κ α :=
  t.filter (fun e => !p e.1)

/-- What an unlisted address of a byte memory reads as (log 4). -/
def unlistedByte : Byte := 0

/-- The byte at address `a`. -/
def memGet : Memory → Nat → Byte
  | [], _ => unlistedByte
  | (a', b) :: r, a => if a' = a then b else memGet r a

/-- Remove address `a`, so that it reads as unlisted. -/
def memErase : Memory → Nat → Memory
  | [], _ => []
  | (a', b) :: r, a => if a' = a then r else if a < a' then (a', b) :: r else (a', b) :: memErase r a

/-- Insert a byte that differs from the unlisted one, keeping addresses rising. -/
def memInsert : Memory → Nat → Byte → Memory
  | [], a, v => [(a, v)]
  | (a', b) :: r, a, v =>
    if a' = a then (a, v) :: r
    else if a < a' then (a, v) :: (a', b) :: r
    else (a', b) :: memInsert r a v

/-- Write one byte, keeping the canonical form. -/
def memSet (m : Memory) (a : Nat) (v : Byte) : Memory :=
  if v = unlistedByte then memErase m a else memInsert m a v

/-- Addresses of `m` all lie above `lo`, rise strictly, and no listed byte reads as unlisted. -/
def Memory.wfFrom : Nat → Memory → Bool
  | _, [] => true
  | lo, (a, b) :: r => decide (lo ≤ a) && decide (b ≠ unlistedByte) && Memory.wfFrom (a + 1) r

/-- The canonical form of a memory. -/
def Memory.wf (m : Memory) : Bool := Memory.wfFrom 0 m

/-- The `n` bytes from `a`, lowest address first. -/
def memBytes (m : Memory) : Nat → Nat → List Byte
  | _, 0 => []
  | a, n + 1 => memGet m a :: memBytes m (a + 1) n

/-- Write a list of bytes from `a` upwards. -/
def memPut (m : Memory) : Nat → List Byte → Memory
  | _, [] => m
  | a, b :: bs => memPut (memSet m a b) (a + 1) bs

/-- The little-endian value of a byte list (R9). -/
def leNat : List Byte → Nat
  | [] => 0
  | b :: bs => b.toNat + 256 * leNat bs

/-- Little-endian field of a byte list. -/
def fieldAt (b : List Byte) (off n : Nat) : Nat := leNat ((b.drop off).take n)

/-- `n` bytes of a value, little-endian (R9). -/
def leBytes : Nat → Nat → List Byte
  | 0, _ => []
  | n + 1, v => BitVec.ofNat 8 v :: leBytes n (v / 256)

/-- The little-endian value of the `n` bytes at `a`. -/
def memLoad (m : Memory) (a n : Nat) : Nat := leNat (memBytes m a n)

/-- Store the low `n` bytes of `v` at `a`, little-endian. -/
def memStore (m : Memory) (a n v : Nat) : Memory := memPut m a (leBytes n v)

/-- Write `n` zero bytes from `a`: those addresses read as unlisted zero again. -/
def memClear (m : Memory) (a n : Nat) : Memory :=
  m.filter (fun c => !(decide (a ≤ c.1) && decide (c.1 < a + n)))

/-- Bits [hi:lo] of a value (R9). -/
def bits (v lo n : Nat) : Nat := (v >>> lo) % 2 ^ n

/-- Bit `b` of a value. -/
def bitOf (v b : Nat) : Bool := v.testBit b

/-- 1 or 0. -/
def b2n (b : Bool) : Nat := if b then 1 else 0

/-- The signed value of the low `n` bits (n at least 1). -/
def sext (v n : Nat) : Int :=
  let u := v % 2 ^ n
  if u < 2 ^ (n - 1) then (u : Int) else (u : Int) - (2 : Int) ^ n

/-- The low `n` bits of a signed value. -/
def wrapNat (v : Int) (n : Nat) : Nat := (v % ((2 : Int) ^ n)).toNat

/-- Limit a value to lo .. hi. -/
def clampNat (v lo hi : Nat) : Nat := if v < lo then lo else if hi < v then hi else v

/-- Limit a signed value to lo .. hi. -/
def clampInt (v lo hi : Int) : Int := if v < lo then lo else if hi < v then hi else v

/-- Bits of a list of Booleans, the first in bit 0. -/
def packBits : List Bool → Nat
  | [] => 0
  | b :: bs => b2n b + 2 * packBits bs

/-- The value of `n` words of `w` bits, the first lowest. -/
def packWords (w : Nat) : List Nat → Nat
  | [] => 0
  | v :: vs => v % 2 ^ w + 2 ^ w * packWords w vs

/-- One step of a reflected CRC over one bit. -/
def crcBit (poly : Nat) (c : Nat) : Nat :=
  if c % 2 = 1 then (c / 2) ^^^ poly else c / 2

/-- A reflected CRC-32 over one byte. -/
def crcByte (poly c : Nat) (b : Byte) : Nat :=
  let c := c ^^^ b.toNat
  crcBit poly (crcBit poly (crcBit poly (crcBit poly (crcBit poly (crcBit poly (crcBit poly (crcBit poly c)))))))

/-- A reflected CRC-32 with initial value and final XOR 0xFFFF_FFFF. -/
def crcOf (poly : Nat) (bs : List Byte) : Nat :=
  (bs.foldl (crcByte poly) 0xFFFFFFFF) ^^^ 0xFFFFFFFF

/-- The CRC-32 of IEEE 802.3 (R418): polynomial 0x04C1_1DB7, reflected. -/
def crc32 (bs : List Byte) : Nat := crcOf 0xEDB88320 bs

/-- The CRC-32C of a flit body (R429): polynomial 0x1EDC_6F41, reflected. -/
def crc32c (bs : List Byte) : Nat := crcOf 0x82F63B78 bs

/-- Insert a number into a rising list without repeats. -/
def setAdd : List Nat → Nat → List Nat
  | [], n => [n]
  | m :: r, n => if n = m then m :: r else if n < m then n :: m :: r else m :: setAdd r n

/-- Remove a number from a rising list. -/
def setDel (l : List Nat) (n : Nat) : List Nat := l.filter (fun m => m != n)

/-- Membership in a list of numbers. -/
def setHas (l : List Nat) (n : Nat) : Bool := l.contains n

/-- Replace element `i` of a list; nothing happens beyond its end. -/
def listSet {α : Type} : List α → Nat → α → List α
  | [], _, _ => []
  | _ :: r, 0, v => v :: r
  | a :: r, n + 1, v => a :: listSet r n v

/-- Remove element `i` of a list. -/
def listDel {α : Type} : List α → Nat → List α
  | [], _ => []
  | _ :: r, 0 => r
  | a :: r, n + 1 => a :: listDel r n

/-- Take consecutive pieces of `n` (n at least 1), `fuel` of them at most. -/
def chunksOf {α : Type} (n : Nat) : Nat → List α → List (List α)
  | 0, _ => []
  | _, [] => []
  | fuel + 1, l => l.take n :: chunksOf n fuel (l.drop n)

end Sys2Proof.Machine
end

