-- ==== Sys2Proof/Machine/Float.lean ====
section
/-! DEFINITION. The four number formats (chapter 03): rounding, arithmetic, conversions, exponential and logarithm, the long-sum fold. Flags are bits of CORE_NUMFLAGS (R94). -/
namespace Sys2Proof.Machine

/-- A result encoding and the CORE_NUMFLAGS bits it raises (R94). -/
structure FRes where
  v : Nat
  fl : Nat
  deriving DecidableEq, Repr

/-- A binary interchange format: fraction bits, exponent bits, and the CORE_NUMFLAGS bit of its INV flag (R86, R94). -/
structure Fmt where
  frac : Nat
  expw : Nat
  base : Nat
  deriving DecidableEq, Repr

/-- binary32. -/
def fmt32 : Fmt := ⟨23, 8, 0⟩
/-- binary64. -/
def fmt64 : Fmt := ⟨52, 11, 5⟩

/-- The exponent bias of a format. -/
def Fmt.bias (f : Fmt) : Nat := 2 ^ (f.expw - 1) - 1
/-- The bit of the sign. -/
def Fmt.signBit (f : Fmt) : Nat := 2 ^ (f.frac + f.expw)
/-- Infinity without sign. -/
def Fmt.infBits (f : Fmt) : Nat := (2 ^ f.expw - 1) * 2 ^ f.frac
/-- The quiet bit of a NaN. -/
def Fmt.quiet (f : Fmt) : Nat := 2 ^ (f.frac - 1)
/-- The default NaN (R88). -/
def Fmt.dnan (f : Fmt) : Nat := f.infBits + f.quiet
/-- Invalid operation. -/
def Fmt.inv (f : Fmt) : Nat := 2 ^ f.base
/-- Division by zero. -/
def Fmt.dz (f : Fmt) : Nat := 2 ^ (f.base + 1)
/-- Overflow. -/
def Fmt.ovf (f : Fmt) : Nat := 2 ^ (f.base + 2)
/-- Underflow. -/
def Fmt.unf (f : Fmt) : Nat := 2 ^ (f.base + 3)
/-- Inexact. -/
def Fmt.inx (f : Fmt) : Nat := 2 ^ (f.base + 4)

/-- K16_OVF, K16_UNF and K16_INV of CORE_NUMFLAGS (R94). -/
def kOvf : Nat := 0x400
def kUnf : Nat := 0x800
def kInv : Nat := 0x1000

/-- An encoding taken apart: a NaN (signalling or not), an infinity, or a finite number (-1)^neg m 2^e. -/
inductive Num where
  | nan (sig : Bool)
  | inf (neg : Bool)
  | fin (neg : Bool) (m : Nat) (e : Int)
  deriving DecidableEq, Repr

/-- The sign bit of an encoding as a Boolean. -/
def Fmt.neg (f : Fmt) (x : Nat) : Bool := x.testBit (f.frac + f.expw)

/-- Take a binary32 or binary64 encoding apart. -/
def Fmt.num (f : Fmt) (x : Nat) : Num :=
  let e := bits x f.frac f.expw
  let m := x % 2 ^ f.frac
  if e = 2 ^ f.expw - 1 then
    if m = 0 then .inf (f.neg x) else .nan (!x.testBit (f.frac - 1))
  else if e = 0 then .fin (f.neg x) m (1 - (f.bias : Int) - f.frac)
  else .fin (f.neg x) (2 ^ f.frac + m) ((e : Int) - f.bias - f.frac)

/-- Put a sign on a magnitude encoding. -/
def Fmt.signed (f : Fmt) (neg : Bool) (x : Nat) : Nat := if neg then x + f.signBit else x

/-- Whether a magnitude m 2^e (and, with `sticky`, a little more) rounds up when cut to multiples of 2^q: nearest, ties to even (R91). The pair is the kept multiple and whether anything was lost. -/
def roundAt (m : Nat) (e q : Int) (sticky : Bool) : Nat × Bool :=
  if q ≤ e then (m <<< (e - q).toNat, sticky)
  else
    let sh := (q - e).toNat
    let kept := m >>> sh
    let rem := m % 2 ^ sh
    let half := 2 ^ (sh - 1)
    let up := decide (half < rem) || (decide (rem = half) && (sticky || kept % 2 == 1))
    (if up then kept + 1 else kept, decide (rem ≠ 0) || sticky)

/-- Round a positive magnitude m 2^e to a format (R91), tininess after rounding (R87). -/
def Fmt.round (f : Fmt) (neg : Bool) (m : Nat) (e : Int) (sticky : Bool) : FRes :=
  let top : Int := (m.log2 : Int) + e
  let emin : Int := 1 - (f.bias : Int)
  let q : Int := max (top - f.frac) (emin - f.frac)
  let (kept, inexact) := roundAt m e q sticky
  let be := (q + f.frac + f.bias).toNat
  let enc := (be - 1) * 2 ^ f.frac + kept
  if f.infBits ≤ enc then ⟨f.signed neg f.infBits, f.ovf + f.inx⟩
  else
    let (free, _) := roundAt m e (top - f.frac) sticky
    let tiny := decide (top < emin) && !(decide (top = emin - 1) && decide (free = 2 ^ (f.frac + 1)))
    ⟨f.signed neg enc, (if inexact then f.inx else 0) + (if tiny && inexact then f.unf else 0)⟩

/-- Round a signed sum v 2^e; a zero takes the sign `zneg`. -/
def Fmt.roundInt (f : Fmt) (v : Int) (e : Int) (zneg : Bool) : FRes :=
  if v = 0 then ⟨f.signed zneg 0, 0⟩ else f.round (decide (v < 0)) v.natAbs e false

/-- The signed mantissa of a finite number brought to exponent `e`. -/
def alignTo (neg : Bool) (m : Nat) (me e : Int) : Int :=
  let v : Int := (m <<< (me - e).toNat : Nat)
  if neg then -v else v

/-- The first NaN among the operands, quietened; INV when any operand is signalling or `bad` (R88). -/
def Fmt.nanOf (f : Fmt) (bad : Bool) (ops : List Nat) : Option FRes :=
  let nans := ops.filter (fun x => match f.num x with | .nan _ => true | _ => false)
  match nans with
  | [] => none
  | x :: _ =>
    let sig := ops.any (fun x => match f.num x with | .nan s => s | _ => false)
    some ⟨x ||| f.quiet, if sig || bad then f.inv else 0⟩

/-- The default NaN of an invalid operation (R88). -/
def Fmt.invalid (f : Fmt) : FRes := ⟨f.dnan, f.inv⟩

/-- Addition. -/
def Fmt.add (f : Fmt) (x y : Nat) : FRes :=
  match f.nanOf false [x, y] with
  | some r => r
  | none =>
    match f.num x, f.num y with
    | .inf a, .inf b => if a = b then ⟨x, 0⟩ else f.invalid
    | .inf _, _ => ⟨x, 0⟩
    | _, .inf _ => ⟨y, 0⟩
    | .fin a m e, .fin b n g =>
      let q := min e g
      f.roundInt (alignTo a m e q + alignTo b n g q) q (a && b && decide (m = 0) && decide (n = 0))
    | _, _ => f.invalid

/-- The sign bit inverted, whatever the encoding (R139 FNEG). -/
def Fmt.negBits (f : Fmt) (x : Nat) : Nat := x ^^^ f.signBit

/-- Subtraction x - y; a NaN y keeps its own bits (R88). -/
def Fmt.sub (f : Fmt) (x y : Nat) : FRes :=
  match f.nanOf false [x, y] with
  | some r => r
  | none => f.add x (f.negBits y)

/-- Multiplication. -/
def Fmt.mul (f : Fmt) (x y : Nat) : FRes :=
  match f.nanOf false [x, y] with
  | some r => r
  | none =>
    match f.num x, f.num y with
    | .inf a, .inf b => ⟨f.signed (a != b) f.infBits, 0⟩
    | .inf a, .fin b n _ => if n = 0 then f.invalid else ⟨f.signed (a != b) f.infBits, 0⟩
    | .fin a m _, .inf b => if m = 0 then f.invalid else ⟨f.signed (a != b) f.infBits, 0⟩
    | .fin a m e, .fin b n g =>
      if m * n = 0 then ⟨f.signed (a != b) 0, 0⟩ else f.round (a != b) (m * n) (e + g) false
    | _, _ => f.invalid

/-- The quotient of two positive magnitudes, with enough bits to round and a sticky bit. -/
def quotBits (p m n : Nat) : Nat × Nat × Bool :=
  let k := p + 4 + n.log2
  (m <<< k / n, k, decide (m <<< k % n ≠ 0))

/-- Division. -/
def Fmt.div (f : Fmt) (x y : Nat) : FRes :=
  match f.nanOf false [x, y] with
  | some r => r
  | none =>
    match f.num x, f.num y with
    | .inf _, .inf _ => f.invalid
    | .inf a, .fin b _ _ => ⟨f.signed (a != b) f.infBits, 0⟩
    | .fin a _ _, .inf b => ⟨f.signed (a != b) 0, 0⟩
    | .fin a m e, .fin b n g =>
      if n = 0 then (if m = 0 then f.invalid else ⟨f.signed (a != b) f.infBits, f.dz⟩)
      else if m = 0 then ⟨f.signed (a != b) 0, 0⟩
      else
        let (q, k, st) := quotBits f.frac m n
        f.round (a != b) q (e - g - k) st
    | _, _ => f.invalid

/-- x y + z with one rounding; INV for 0 times infinity even beside a NaN addend (R88). -/
def Fmt.fma (f : Fmt) (x y z : Nat) : FRes :=
  let bad := match f.num x, f.num y with
    | .inf _, .fin _ m _ => m == 0
    | .fin _ m _, .inf _ => m == 0
    | _, _ => false
  match f.nanOf bad [x, y, z] with
  | some r => r
  | none =>
    if bad then f.invalid
    else
      match f.num x, f.num y, f.num z with
      | .fin a m e, .fin b n g, .fin c k h =>
        let q := min (e + g) h
        f.roundInt (alignTo (a != b) (m * n) (e + g) q + alignTo c k h q) q
          ((a != b) && c && decide (m * n = 0) && decide (k = 0))
      | .fin _ _ _, .fin _ _ _, _ => ⟨z, 0⟩
      | _, _, .inf c => if (f.neg x != f.neg y) = c then ⟨z, 0⟩ else f.invalid
      | _, _, _ => ⟨f.signed (f.neg x != f.neg y) f.infBits, 0⟩

/-- The integer square root, bit by bit from bit `n - 1`. -/
def isqrtFrom (v : Nat) : Nat → Nat → Nat
  | 0, r => r
  | n + 1, r => let t := r + 2 ^ n; isqrtFrom v n (if t * t ≤ v then t else r)

/-- The square root of m 2^e with enough bits for p fraction bits: mantissa, exponent, sticky. -/
def sqrtBits (p m : Nat) (e : Int) : Nat × Int × Bool :=
  let k0 := 2 * (p + 3)
  let k := if (e - k0) % 2 = 0 then k0 else k0 + 1
  let v := m <<< k
  let r := isqrtFrom v (v.log2 / 2 + 1) 0
  (r, (e - k) / 2, decide (r * r ≠ v))

/-- Square root. -/
def Fmt.sqrt (f : Fmt) (x : Nat) : FRes :=
  match f.nanOf false [x] with
  | some r => r
  | none =>
    match f.num x with
    | .inf a => if a then f.invalid else ⟨x, 0⟩
    | .fin a m e =>
      if m = 0 then ⟨x, 0⟩
      else if a then f.invalid
      else
        let (r, q, st) := sqrtBits f.frac m e
        f.round false r q st
    | _ => f.invalid

/-- An order key of a number: infinities beyond every finite value. -/
def numLt : Num → Num → Bool
  | .inf a, .inf b => a && !b
  | .inf a, .fin _ _ _ => a
  | .fin _ _ _, .inf b => !b
  | .fin a m e, .fin b n g => let q := min e g; decide (alignTo a m e q < alignTo b n g q)
  | _, _ => false

/-- Equality of values: zeros of either sign are equal (R77, R86). -/
def numEq : Num → Num → Bool
  | .inf a, .inf b => a == b
  | .fin a m e, .fin b n g => let q := min e g; decide (alignTo a m e q = alignTo b n g q)
  | _, _ => false

/-- minimumNumber (isMax false) or maximumNumber, -0 below +0 (R139). -/
def Fmt.minMax (f : Fmt) (isMax : Bool) (x y : Nat) : FRes :=
  let sig := [x, y].any (fun v => match f.num v with | .nan s => s | _ => false)
  let fl := if sig then f.inv else 0
  match f.num x, f.num y with
  | .nan _, .nan _ => ⟨x ||| f.quiet, fl⟩
  | .nan _, _ => ⟨y, fl⟩
  | _, .nan _ => ⟨x, fl⟩
  | a, b =>
    let xLess := if numEq a b then f.neg x && !f.neg y else numLt a b
    ⟨if xLess != isMax then x else if numEq a b && (f.neg x == f.neg y) then x else y, 0⟩

/-- Comparison codes of FCMP (R139): EQ NE LT LE GT GE UN OR; LT to GE signal INV on a NaN. -/
def Fmt.cmp (f : Fmt) (cc : Nat) (x y : Nat) : Bool × Nat :=
  let a := f.num x
  let b := f.num y
  let isNan := fun (n : Num) => match n with | .nan _ => true | _ => false
  let isSig := fun (n : Num) => match n with | .nan s => s | _ => false
  let un := isNan a || isNan b
  let fl := if isSig a || isSig b || (un && decide (2 ≤ cc) && decide (cc ≤ 5)) then f.inv else 0
  let lt := numLt a b
  let eq := numEq a b
  let r := match cc with
    | 0 => !un && eq
    | 1 => un || !eq
    | 2 => !un && lt
    | 3 => !un && (lt || eq)
    | 4 => !un && !(lt || eq)
    | 5 => !un && !lt
    | 6 => un
    | _ => !un
  (r, fl)

/-- Conversion between binary32 and binary64: flags of the destination (R89). A NaN keeps the high bits of its payload (log 32). -/
def cvtFmt (src dst : Fmt) (x : Nat) : FRes :=
  match src.num x with
  | .nan s =>
    let pay := x % 2 ^ src.frac
    let pay := if src.frac ≤ dst.frac then pay <<< (dst.frac - src.frac) else pay >>> (src.frac - dst.frac)
    ⟨dst.signed (src.neg x) (dst.infBits + (pay ||| dst.quiet)), if s then dst.inv else 0⟩
  | .inf a => ⟨dst.signed a dst.infBits, 0⟩
  | .fin a m e => if m = 0 then ⟨dst.signed a 0, 0⟩ else dst.round a m e false

/-- Conversion to a signed n-bit integer: nearest, limited; INV on a NaN or beyond the range, never inexact (R89). -/
def Fmt.toInt (f : Fmt) (n : Nat) (x : Nat) : Int × Nat :=
  let hi : Int := (2 : Int) ^ (n - 1) - 1
  let lo : Int := -((2 : Int) ^ (n - 1))
  match f.num x with
  | .nan _ => (0, f.inv)
  | .inf a => (if a then lo else hi, f.inv)
  | .fin a m e =>
    let k : Int := (roundAt m e 0 false).1
    let v := if a then -k else k
    if v < lo then (lo, f.inv) else if hi < v then (hi, f.inv) else (v, 0)

/-- Conversion of an integer (R139 CVTIF). -/
def Fmt.ofInt (f : Fmt) (v : Int) : FRes := f.roundInt v 0 false

/-- Multiply an encoding's value by 2^k, rounding once. -/
def Fmt.scale (f : Fmt) (k : Int) (x : Nat) : FRes :=
  match f.nanOf false [x] with
  | some r => r
  | none =>
    match f.num x with
    | .fin a m e => if m = 0 then ⟨x, 0⟩ else f.round a m (e + k) false
    | _ => ⟨x, 0⟩

/-! ## K16 and K12 -/

/-- A short format: fraction bits (10 for K16, 6 for K12); exponent 5 bits, bias 15 (R75, R82). -/
def kNum (frac x : Nat) : Num :=
  let e := bits x frac 5
  let m := x % 2 ^ frac
  let neg := x.testBit (frac + 5)
  if e = 0 then .fin neg m (-14 - (frac : Int)) else .fin neg (2 ^ frac + m) ((e : Int) - 15 - frac)

/-- The largest magnitude encoding of a short format (R76, R82). -/
def kMax (frac : Nat) : Nat := 2 ^ (frac + 5) - 1

/-- Sign placed on a short-format magnitude. -/
def kSigned (frac : Nat) (neg : Bool) (x : Nat) : Nat := if neg then x + 2 ^ (frac + 5) else x

/-- Conversion of a positive magnitude m 2^e (slightly more with `sticky`) to a short format by the table of R92. -/
def kRound (frac : Nat) (neg : Bool) (m : Nat) (e : Int) (sticky : Bool) : FRes :=
  let lim := 2 ^ 17 - 2 ^ (15 - frac)
  let big := if 0 ≤ e then decide (lim ≤ m <<< e.toNat) else decide (lim <<< (-e).toNat ≤ m)
  if big then ⟨kSigned frac neg (kMax frac), kOvf⟩
  else
    let z : Int := e + 15 + frac
    let small := if 0 ≤ z then decide (m <<< z.toNat < 1) || (decide (m <<< z.toNat = 1) && !sticky)
      else decide (m < 1 <<< (-z).toNat) || (decide (m = 1 <<< (-z).toNat) && !sticky)
    if small then ⟨kSigned frac neg 0, kUnf⟩
    else
      let top : Int := (m.log2 : Int) + e
      let q : Int := max (top - frac) (-14 - (frac : Int))
      let kept := (roundAt m e q sticky).1
      ⟨kSigned frac neg (((q + frac + 15).toNat - 1) * 2 ^ frac + kept), 0⟩

/-- Conversion of a number to a short format (R92). -/
def kOfNum (frac : Nat) : Num → FRes
  | .nan _ => ⟨0, kInv⟩
  | .inf a => ⟨kSigned frac a (kMax frac), kOvf⟩
  | .fin a m e => if m = 0 then ⟨kSigned frac a 0, 0⟩ else kRound frac a m e false

/-- Multiply a number by 2^k exactly. -/
def numScale (k : Int) : Num → Num
  | .fin a m e => .fin a m (e + k)
  | n => n

/-- Conversion of a binary32 or binary64 value to K16 (frac 10) or K12 (frac 6) with scale exponent SE (R92). -/
def Fmt.toK (f : Fmt) (frac : Nat) (se : Int) (x : Nat) : FRes :=
  kOfNum frac (numScale (-se) (f.num x))

/-- Widening of K16 with scale exponent SE (R93). -/
def Fmt.ofK (f : Fmt) (se : Int) (k : Nat) : FRes :=
  match kNum 10 k with
  | .fin a m e => if m = 0 then ⟨f.signed a 0, 0⟩ else f.round a m (e + se) false
  | _ => ⟨0, 0⟩

/-- Exact widening of a K12 encoding to K16 (R83). -/
def k12to16 (x : Nat) : Nat := (x / 2048 % 2) * 2 ^ 15 + (bits x 6 5) * 2 ^ 10 + (x % 64) * 16

/-- The exact signed sum of K16 operands, converted with SE 0; zero takes sign `zneg` (R93). -/
def kOfInt (v : Int) (e : Int) (zneg : Bool) : FRes :=
  if v = 0 then ⟨kSigned 10 zneg 0, 0⟩ else kRound 10 (decide (v < 0)) v.natAbs e false

/-- K16 x y + z, exact then R92 (R93). -/
def kFma (x y z : Nat) : FRes :=
  match kNum 10 x, kNum 10 y, kNum 10 z with
  | .fin a m e, .fin b n g, .fin c k h =>
    let q := min (e + g) h
    kOfInt (alignTo (a != b) (m * n) (e + g) q + alignTo c k h q) q
      ((a != b) && c && decide (m * n = 0) && decide (k = 0))
  | _, _, _ => ⟨0, kInv⟩

/-- K16 addition. -/
def kAdd (x y : Nat) : FRes :=
  match kNum 10 x, kNum 10 y with
  | .fin a m e, .fin b n g =>
    let q := min e g
    kOfInt (alignTo a m e q + alignTo b n g q) q (a && b && decide (m = 0) && decide (n = 0))
  | _, _ => ⟨0, kInv⟩

/-- K16 subtraction: x + (-y) (R93). -/
def kSub (x y : Nat) : FRes := kAdd x (y ^^^ 0x8000)

/-- K16 multiplication. -/
def kMul (x y : Nat) : FRes :=
  match kNum 10 x, kNum 10 y with
  | .fin a m e, .fin b n g =>
    if m * n = 0 then ⟨kSigned 10 (a != b) 0, 0⟩ else kRound 10 (a != b) (m * n) (e + g) false
  | _, _ => ⟨0, kInv⟩

/-- K16 division with the special cases of R93. -/
def kDiv (x y : Nat) : FRes :=
  match kNum 10 x, kNum 10 y with
  | .fin a m e, .fin b n g =>
    if n = 0 then (if m = 0 then ⟨0, kInv⟩ else ⟨kSigned 10 (a != b) (kMax 10), kOvf⟩)
    else if m = 0 then ⟨kSigned 10 (a != b) 0, 0⟩
    else
      let (q, k, st) := quotBits 40 m n
      kRound 10 (a != b) q (e - g - k) st
  | _, _ => ⟨0, kInv⟩

/-- K16 square root (R93). -/
def kSqrt (x : Nat) : FRes :=
  match kNum 10 x with
  | .fin a m e =>
    if m = 0 then ⟨x, 0⟩
    else if a then ⟨0, kInv⟩
    else
      let (r, q, st) := sqrtBits 40 m e
      kRound 10 false r q st
  | _ => ⟨0, kInv⟩

/-- K16 minimum or maximum: of two equal values the first operand (R77). -/
def kMinMax (isMax : Bool) (x y : Nat) : FRes :=
  let a := kNum 10 x
  let b := kNum 10 y
  ⟨if numEq a b then x else if numLt a b != isMax then x else y, 0⟩

/-- K16 comparison: UN false, OR true (R162). -/
def kCmp (cc : Nat) (x y : Nat) : Bool :=
  let lt := numLt (kNum 10 x) (kNum 10 y)
  let eq := numEq (kNum 10 x) (kNum 10 y)
  match cc with
  | 0 => eq | 1 => !eq | 2 => lt | 3 => lt || eq | 4 => !(lt || eq) | 5 => !lt | 6 => false | _ => true

/-! ## Exponential and logarithm, correctly rounded (R163; log 16) -/

/-- Fixed-point precision of the two functions. -/
def fxBits : Nat := 320

/-- floor(ln 2 times 2^320). -/
def fxLn2 : Nat := 1480553391661173448385607439722553250922680800745876974795605978609098082859138712941075737848984

/-- The Taylor sum of e^r from term `i` for `n` terms, in fixed point. -/
def expSeries (r : Nat) : Nat → Nat → Nat → Nat → Nat
  | 0, _, _, acc => acc
  | n + 1, i, t, acc => let t := ((t * r) >>> fxBits) / i; expSeries r n (i + 1) t (acc + t)

/-- e^x. -/
def Fmt.exp (f : Fmt) (x : Nat) : FRes :=
  match f.nanOf false [x] with
  | some r => r
  | none =>
    match f.num x with
    | .inf a => ⟨if a then 0 else f.infBits, 0⟩
    | .fin a m e =>
      if m = 0 then ⟨f.bias * 2 ^ f.frac, 0⟩
      else
        let top : Int := (m.log2 : Int) + e
        if top < -80 then (if a then f.round false (2 ^ 200 - 1) (-200) true else f.round false (2 ^ 200) (-200) true)
        else if 12 < top then f.round false 1 (if a then -4000 else 4000) true
        else
          let v : Int := alignTo a m (e + fxBits) 0
          let k := v / (fxLn2 : Int)
          let r := (v - k * fxLn2).toNat
          let sum := expSeries r 90 1 (2 ^ fxBits) (2 ^ fxBits)
          f.round false (sum >>> 16) (k - fxBits + 16) true
    | _ => f.invalid

/-- The series of 2 atanh z, without the factor 2, in fixed point: `p` is z^i and `z2` is z squared. -/
def atanhSeries (z2 : Nat) : Nat → Nat → Nat → Nat → Nat
  | 0, _, _, acc => acc
  | n + 1, i, p, acc => atanhSeries z2 n (i + 2) ((p * z2) >>> fxBits) (acc + p / i)

/-- The natural logarithm. -/
def Fmt.log (f : Fmt) (x : Nat) : FRes :=
  match f.nanOf false [x] with
  | some r => r
  | none =>
    match f.num x with
    | .inf a => if a then f.invalid else ⟨x, 0⟩
    | .fin a m e =>
      if m = 0 then ⟨f.signed true f.infBits, f.dz⟩
      else if a then f.invalid
      else if x = f.bias * 2 ^ f.frac then ⟨0, 0⟩
      else
        let lg := m.log2
        let k : Int := (lg : Int) + e
        let y := m <<< (fxBits - lg)
        let one := 2 ^ fxBits
        let z := (y - one) <<< fxBits / (y + one)
        let s := 2 * atanhSeries ((z * z) >>> fxBits) 110 1 z 0
        let v : Int := k * fxLn2 + s
        f.round (decide (v < 0)) (v.natAbs >>> 16) (16 - (fxBits : Int)) true
    | _ => f.invalid

/-! ## Exponent of a magnitude, fold, generators -/

/-- E(m) = floor(log2 m) of a positive finite binary32 value (R100). -/
def expOf32 (x : Nat) : Int :=
  match fmt32.num x with
  | .fin _ m e => (m.log2 : Int) + e
  | _ => 0

/-- |x| of a binary32 encoding with infinity counted as 0x7F7F_FFFF; none for a NaN (R102, R104). -/
def amax32 (x : Nat) : Option Nat :=
  match fmt32.num x with
  | .nan _ => none
  | .inf _ => some 0x7F7FFFFF
  | .fin _ _ _ => some (x % 2 ^ 31)

/-- One step of a fold generator (R107). -/
def galois (s : Nat) : Nat := if s % 2 = 1 then (s / 2) ^^^ 0x80200003 else s / 2

/-- The generator lane l receives from a seed (R109). -/
def seedLane (seed l : Nat) : Nat :=
  let v := seed ^^^ ((l + 1) * 0x9E3779B9 % 2 ^ 32)
  if v = 0 then 1 else v

/-- The long-sum fold of m and p with generator value r (R105, R106); the flag says whether step 4 used the generator. -/
def foldAdd (m p r : Nat) : FRes :=
  match fmt32.num m, fmt32.num p with
  | .fin a x e, .fin b y g =>
    let q := min e g
    let v := alignTo a x e q + alignTo b y g q
    let near := fmt32.roundInt v q (a && b && decide (x = 0) && decide (y = 0))
    let neg := decide (v < 0)
    let mag := v.natAbs
    let top : Int := (mag.log2 : Int) + q
    let u : Int := max (top - 23) (-149)
    if v = 0 then near
    else if u ≤ q ∧ top < 128 then near
    else
      let sh := (u - q).toNat
      let t := mag >>> sh
      let rem := mag % 2 ^ sh
      if rem = 0 ∧ top < 128 then near
      else if 128 ≤ top then ⟨fmt32.signed neg fmt32.infBits, fmt32.ovf + fmt32.inx⟩
      else
        let thr := rem * 2 ^ 32 / 2 ^ sh
        let t' := if r < thr then t + 1 else t
        let enc := ((u + 149).toNat) * 2 ^ 23 + t'
        if fmt32.infBits ≤ enc then ⟨fmt32.signed neg fmt32.infBits, fmt32.ovf + fmt32.inx⟩
        else ⟨fmt32.signed neg enc, fmt32.inx + (if enc < 2 ^ 23 then fmt32.unf else 0)⟩
  | _, _ => fmt32.add m p

/-! ## The fixed pairwise tree (R163) -/

/-- One level of the tree, with the flags of its combinations. -/
def treeLevel (f : Nat → Nat → FRes) : List Nat → List Nat × Nat
  | a :: b :: r =>
    let x := f a b
    let (l, fl) := treeLevel f r
    (x.v :: l, x.fl ||| fl)
  | l => (l, 0)

/-- The tree over a list of lanes, at most 13 levels; no lane gives +0. -/
def treeOf (f : Nat → Nat → FRes) : Nat → List Nat → FRes
  | _, [] => ⟨0, 0⟩
  | _, [a] => ⟨a, 0⟩
  | 0, a :: _ => ⟨a, 0⟩
  | n + 1, l =>
    let (l, fl) := treeLevel f l
    let r := treeOf f n l
    ⟨r.v, r.fl ||| fl⟩

end Sys2Proof.Machine
end

