-- ==== Sys2Proof/Config.lean ====
section
/-! DEFINITION. What one module fixes and the spec leaves open: constants without a body, so that nothing can be proved of their values. -/
namespace Sys2Proof.Config

/-- How far the postmark copy of region `d` lies from the master when the master holds `t` (R338: within 2 ns; the model limits what this gives to -2 .. 2). Log 5. -/
opaque pmSkew (d : Nat) (t : Nat) : Int

/-- The pseudo-random offset PTB_PMJITTER adds to region `d`'s copy at master time `t` (R529: within AMP ns; the model limits it). Log 5. -/
opaque pmJitter (d : Nat) (t : Nat) : Int

/-- Reset value of the test control (WB field or unnamed offset) at offset `off` of the privileged frame of region `d`; `kind` 0 perturbation, 1 conservator calibration, 2 strongroom calibration (R65). Log 14. -/
opaque testControl (kind d off : Nat) : BitVec 32

/-- Whether a strongroom package's signature is right (R498; an external standard). Log 17. -/
opaque sigValid (package : List (BitVec 8)) : Bool

/-- Whether a Moant image passes its checks (R478). Log 17. -/
opaque fwImageValid (image : List (BitVec 8)) : Bool

/-- The power in watts that region `d`'s demand model predicts at clock step `k` (R487, R488). Log 18. -/
opaque predictedPower (d k : Nat) : Nat

/-- The hash by which a stage's engine, ring and DST_ID fix its port (R442). Log 51. -/
opaque stageHash (engine ring dst : Nat) : Nat

/-- Bits [31:4] of the FILL words a port sends (R430). Log 52. -/
opaque fillBits : BitVec 28

/-- How long lane `l` of port `p` stays in training state `n` (1 to 5) of the training that began at `start`, before it is limited to the state's budget (R439). Log 57. -/
opaque laneTime (p l n : Nat) (start : Nat) : BitVec 32

/-- The conservator's reference slack of region `d` in ps, in reference tables `t` of the fuse shadow (R493, R501). Log 70. -/
opaque csvRef (t d : Nat) : Nat

/-- V0 in mV of region `d` at step `k`, in reference tables `t` (R501; fuse shadow). Log 70. -/
opaque csvV0 (t d k : Nat) : Nat

/-- SENS_k of region `d` in mV per ps, as a fraction: its numerator and one less than its denominator, in reference tables `t` (R501; fuse shadow). Log 70. -/
opaque csvSens (t d k : Nat) : Nat × Nat

/-- The clamp and trip levels a package for record 1 carries, in the order of the rows of R495 (R498: the payload has no stated layout). Log 17. -/
opaque packageLimits (payload : List (BitVec 8)) : List (Nat × Nat)

/-- The site map and spare of region `d` that a package for record 2 carries (R18, R498: the payload has no stated layout). Log 17. -/
opaque packageSites (payload : List (BitVec 8)) (d : Nat) : List Nat × Nat

/-- The full-rate power of one array in watts, which R488 reserves for each block. Log 18. -/
opaque arrayPower : Nat

/-- The trims of the input sensors (0 SRM_CAL_VIN, 1 SRM_CAL_IIN) that a package for record 2 carries (R66; the payload has no stated layout). Log 17. -/
opaque packageTrims (payload : List (BitVec 8)) (i : Nat) : BitVec 32

/-- The stacks, 0 to 15, whose lane repairs a package of record 2 gives (R493, R498). Log 17. -/
opaque packageRepairs (payload : List (BitVec 8)) : List Nat

/-- LNK_CAL.OFFSET_TRIM of lane `l` of port `p` that a package for record 2 carries (R459, R493, R498). Log 17. -/
opaque packageLane (payload : List (BitVec 8)) (p l : Nat) : BitVec 16

/-- CSV_GUARD of region `d` that a package for record 2 carries (R493, R498, R548). Log 17. -/
opaque packageGuard (payload : List (BitVec 8)) (d : Nat) : BitVec 8

/-- CSV_EVENT_PJ of event `e` of region `d` that a package for record 2 carries (R493, R498, R548). Log 17. -/
opaque packageEnergy (payload : List (BitVec 8)) (d e : Nat) : BitVec 16

/-- Byte `i` of strongroom record `n` when the record holds `content` (R493: the records have no stated layout). Log 12. -/
opaque recordByte (n : Nat) (content : List Nat) (i : Nat) : BitVec 8

/-- A fresh free value for what the spec leaves without a value; `n` counts the draws. Log 11. -/
opaque freeValue (n : Nat) : BitVec 64

end Sys2Proof.Config
end

