-- ==== Sys2Proof/Machine/State.lean ====
section
/-! DEFINITION. The state of the module as plain data, its faults and refusals, and the state after reset. -/
namespace Sys2Proof.Machine

/-- The model has no faults of its own: every condition the spec describes is taken as a next state. Safe: a run never stops where the module would go on. -/
inductive Fault where
  | none
  deriving DecidableEq, Repr

/-- Why a command has no meaning. -/
inductive Refusal where
  /-- Raised by an arm of `exec` whose command has no meaning yet. Safe: the run stops. -/
  | notModelled (mnemonic : String)
  deriving DecidableEq, Repr

/-! ## Register frames (chapter 02) -/

/-- Which frame of BAR0 (R537, R538, R540 to R547), by unit; `k` is a module core number, so a frame follows its core through a site swap. -/
inductive FrameId where
  | func (c : Nat) | lb (c : Nat) | mpwr | revt | srm | srmCal
  | rctl (d : Nat) | rpwr (d : Nat) | evt (d : Nat) | sync (d : Nat)
  | cu (k : Nat) | tcu (k a : Nat) | ae (k : Nat) | mc (k : Nat)
  | stk (d j : Nat) | upe (d j : Nat) | port (p : Nat) | lane (p l : Nat) | ce (d : Nat)
  | ptb (d : Nat) | csv (d : Nat) | csvCal (d : Nat)
  deriving DecidableEq, Repr

/-- One frame: stored registers by plain offset (absent: the reset value of the register table), the accession counter, flags and stamps of its status registers (R54), hidden parity mismatches and which of them were reported (R58, R60), captured high words by agent (R50), whether the unit is frozen, and the registers whose mismatch froze it, which the releasing reset reloads (R61). -/
structure Frame where
  regs : Tbl Nat W32 := []
  accession : BitVec 16 := 0
  flags : Tbl Nat (BitVec 16) := []
  stamps : Tbl (Nat × Nat) (BitVec 16) := []
  badParity : List Nat := []
  reported : List Nat := []
  captures : Tbl (Agent × Nat) W32 := []
  frozen : Bool := false
  failed : List Nat := []
  deriving DecidableEq, Repr

/-! ## Control units (chapters 04, 05, 09, 10) -/

/-- A V-stack slot and the poison bit of each quarter (R111, R152, R169). -/
structure VSlot where
  v : SlotBits
  poison : BitVec 4
  deriving DecidableEq, Repr

/-- A pending cause: its code and what its frame will carry, from its first raising (R350, R357). -/
structure Cause where
  code : Nat
  precise : Bool := false
  syscall : BitVec 12 := 0
  addr : W64 := 0
  info : W64 := 0
  deriving DecidableEq, Repr

/-- In what an instruction that has not issued waits (R332, R335): the codes 2 to 11 of the post-mortem dump, and the waits that do not count as blocked (a fence, a full maintenance operation, a full sync port). -/
inductive WaitKind where
  | sync (obj : Nat)
  | vqpop
  | vqpush
  | descriptors
  | tquiesce
  | commandQueue
  | aepost
  | swaitT (t : W64)
  | waiti
  | tstart
  | fence
  | memory
  | maint (op : Nat)
  | syncPort
  deriving DecidableEq, Repr

/-- A waiting instruction: in what and since when, the wait policy it latched, and whether the core is in low-power wait (R328, R329). -/
structure Waiting where
  kind : WaitKind
  since : W64
  policy : W32
  instr : Instr
  lowPower : Bool := false
  deriving DecidableEq, Repr

/-- A resumable instruction under way (R174 to R176), its operands still on the stack: the chunk it works on, its partials, flags and poison so far, and what the loads of this chunk returned, in pieces with their poison, once they have gone to memory. -/
structure Resum where
  instr : Instr
  chunk : Nat
  partials : List W64
  flags : Nat
  poison : Bool
  data : Option (List (List Byte × Bool)) := none
  deriving DecidableEq, Repr

/-- A loan under way (R369): whether it is forced, whether the core was FREE, whether issue was stopped before it and whether step 1 has stopped it, the new context (none: no context), its areas and start address, the docket's source, and when step 2 began. -/
structure Loan where
  force : Bool
  wasFree : Bool
  wasStopped : Bool
  stopped : Bool
  newCtx : Option Nat
  save : Nat
  restore : Nat
  startPc : W64
  via : Via
  started : Nat
  deriving DecidableEq, Repr

/-- An arithmetic flag that a tile instruction raises in the present cycle: its bit, whether the instruction issued in precise mode, its address, every flag it has set (R96, R353). -/
structure ArithEv where
  bit : Nat
  precise : Bool
  pc : W64
  all : Nat
  deriving DecidableEq, Repr

/-- One core's control unit; `tileHold` is set while a tile instruction dispatched in precise mode holds back every later instruction (R254), `armed` holds the times of TSTART.AT by array; `tphase` is how far the present cycle of its arrays has come, `newArith` the arithmetic flags that set in it (R55); `stopBy` says what stopped it in block reset: 1 a third fault, 2 BLOCK_RESET (R477). -/
structure Core where
  pc : W64 := 0
  istk : List W64 := []
  vstk : List VSlot := []
  dmem : Memory := []
  dpoison : List Nat := []
  gens : List W32 := []
  predictor : Tbl Nat (BitVec 2) := []
  pend : List Cause := []
  waiting : Option Waiting := none
  resum : Option Resum := none
  entering : Bool := false
  armed : Tbl Nat W64 := []
  tileSeq : Nat := 0
  tileHold : Bool := false
  stopBy : Nat := 0
  tphase : Nat := 0
  newArith : List ArithEv := []
  loan : Option Loan := none
  deriving DecidableEq, Repr

/-! ## Access engines and memory caches (chapter 08) -/

/-- A queue entry (R279); `ready` is the region core cycle from which PTB_QDELAY lets it be popped (R529), `pushed` the array and its cycle that pushed it (R246). -/
structure QEntry where
  row : RowBits
  valid : Bool
  tag : BitVec 10
  poison : Bool
  ready : Nat := 0
  pushed : Option (Nat × Nat) := none
  deriving DecidableEq, Repr

/-- A cached translation (R273): page number, frame address and the leaf bits that govern accesses (R271). -/
structure TlbEntry where
  vpn : Nat
  frame : Nat
  w : Bool
  u : Bool
  x : Bool
  na : Bool
  deriving DecidableEq, Repr

/-- A fault record (R281). -/
structure FaultRec where
  valid : Bool := false
  cause : BitVec 3 := 0
  gather : Bool := false
  index : Bool := false
  element : BitVec 4 := 0
  vmask : BitVec 16 := 0
  row : W32 := 0
  va : BitVec 48 := 0
  deriving DecidableEq, Repr

/-- A row being assembled for a LOAD or a GATHER: bytes so far, bytes still missing, poison (R263, R268). -/
structure RowAsm where
  bytes : List Byte
  missing : Nat
  poison : Bool
  deriving DecidableEq, Repr

/-- A posted descriptor and how far it is: its words, its poster's level, whether its WSYNC wait is over, the rows translated, the elements of the gather group translated, the rows pushed or popped, the assembly rows, the entry a STORE holds back, whether a fault stops it, whether it is being abandoned (R257 to R269, R282 to R284). -/
structure Desc where
  words : List W64
  user : Bool
  seq : Nat
  waiting : Bool
  started : Bool := false
  translated : Nat := 0
  elem : Nat := 0
  done : Nat := 0
  asm : Tbl Nat RowAsm := []
  held : Option QEntry := none
  stopped : Bool := false
  aborted : Bool := false
  deriving DecidableEq, Repr

/-- The bytes a request writes to one sector, and whether they carry poison. -/
structure WPart where
  pa : Nat
  data : List Byte
  poison : Bool
  deriving DecidableEq, Repr

/-- A request to 1 to 4 sectors of one 512-byte line (R275). A read names its row of a descriptor, where its bytes go in the row, its virtual and physical range, its page's attributes; a write has `parts` (a STORE's row, or with no descriptor a write-back). `born` is the region cycle in which it entered the frame. Once looked up, `on` says whether the cache was enabled (R309), `fill` which sectors its data is to be installed in, `dropped` whether a fill is discarded on arrival (R298). `maint` says what started a write-back: 0 an eviction, 1 MCCLN.ALL, 2 an operation by address (R293). -/
structure Req where
  desc : Option Nat
  row : Nat := 0
  at_ : Nat := 0
  va : Nat := 0
  pa : Nat := 0
  len : Nat := 0
  na : Bool := false
  alloc : Bool := false
  parts : List WPart := []
  born : Nat := 0
  on : Bool := false
  fill : List Nat := []
  dropped : Bool := false
  maint : Nat := 0
  deriving DecidableEq, Repr

/-- A write request that holds its slot until its stack controller accepts it (R275, R299, R551): `desc` for a STORE's rows, `evict` for a cache write-back, `tile` for a TSAVE: its array and the context it was dispatched in (R193); `maint` as in Req. -/
structure PendWrite where
  parts : List WPart
  desc : Option Nat := none
  evict : Bool := false
  tile : Option (Nat × Nat) := none
  maint : Nat := 0
  deriving DecidableEq, Repr

/-- A core's access engine: `again` holds requests that wait for room in the sorting frame, `nextIssue` the first region cycle in which the frame may issue again (R276). -/
structure Ae where
  queues : Tbl Nat (List QEntry) := []
  descs : Tbl Nat Desc := []
  nextSeq : Nat := 0
  frecs : Tbl Nat FaultRec := []
  tlbM : Tbl Nat TlbEntry := []
  tlbMNext : Nat := 0
  tlbG : Tbl Nat TlbEntry := []
  tlbGNext : Nat := 0
  frame : List Req := []
  again : List Req := []
  nextIssue : Nat := 0
  slots : List Req := []
  openPage : Tbl (Nat × Nat × Nat) Nat := []
  writes : List PendWrite := []
  deriving DecidableEq, Repr

/-- One translated piece of a virtual range: where it starts, its physical place, its length, whether its page is NA. -/
structure Seg where
  va : Nat
  pa : Nat
  len : Nat
  na : Bool
  deriving DecidableEq, Repr

/-! ## Matrix arrays (chapters 06, 07) -/

/-- A row of a tile (low 2,048 bits) or of an accumulator, with its mark, tag and poison (R184). -/
structure TileRow where
  bits : AccBits := 0
  mark : Bool := false
  tag : BitVec 10 := 0
  poison : Bool := false
  deriving DecidableEq, Repr

/-- A tile or accumulator: configuration, full or empty, rows (R183 to R188). -/
structure TileStore where
  cfg : W32
  full : Bool := false
  rows : Tbl Nat TileRow := []
  deriving DecidableEq, Repr

/-- One row of weights. -/
structure WRow where
  bits : RowBits := 0
  poison : Bool := false
  deriving DecidableEq, Repr

/-- The active set as rows entering from `e0` on see it (R208): shape, rows. -/
structure WGen where
  id : Nat
  e0 : Nat
  shape : W32
  rows : Tbl Nat WRow
  deriving DecidableEq, Repr

/-- A dispatched tile instruction with what it took from the stack and read at dispatch (R197, R193, R241). -/
inductive TileOp where
  | tcfg (t : Nat) (cfg : W32)
  | trel (t : Nat)
  | trela
  | tzero (t : Nat)
  | tsave (t : Nat) (ctx : Nat) (image : List Seg)
  | trestore (t : Nat) (ctx : Nat) (image : List Seg) (cfg : W32) (empty : Bool) (marks : Nat)
  | tmove (sa st da dt : Nat)
  | twload (b : WeightLoad)
  | tstream (b : Stream)
  | tdrain (b : Drain) (factor lo hi : W32) (record : Nat)
  | tfill (dly opd t : Nat)
  | temit (dly opd t : Nat)
  deriving DecidableEq, Repr

/-- A command queue entry: its place in the core's program order, its address, and whether it was dispatched in precise mode (R354). -/
structure TileCmd where
  op : TileOp
  seq : Nat
  pc : W64
  precise : Bool := false
  deriving DecidableEq, Repr

/-- A TSTREAM from its issue to its last accumulator write: rows popped and written, latched shape, flags set so far (R96, R201, R211). -/
structure StreamRun where
  seq : Nat
  pc : W64
  precise : Bool := false
  b : Stream
  popped : Nat := 0
  written : Nat := 0
  len : Nat
  etype : Nat
  se : BitVec 8
  flags : Nat := 0
  deriving DecidableEq, Repr

/-- A row between its entry and its accumulator write (R209): entry cycle, contents, where it goes, the weights it meets, and the accumulator row latched at e + 256. -/
structure FlightRow where
  stream : Nat
  entry : Nat
  bits : RowBits
  valid : Bool
  tag : BitVec 10
  poison : Bool
  acc : Nat
  row : Nat
  gen : Nat
  latched : Option TileRow := none
  deriving DecidableEq, Repr

/-- A TDRAIN in flight (R215 to R219, R102). -/
structure DrainRun where
  cmd : TileCmd
  b : Drain
  start : Nat
  cols : Nat
  factor : W32
  lo : W32
  hi : W32
  bias : List W32
  record : Nat
  se : BitVec 8
  read : Nat := 0
  nextRead : Nat
  left : Nat
  amax : Nat := 0
  sat : Bool := false
  flags : Nat := 0
  deriving DecidableEq, Repr

/-- The first 256 bytes of an accumulator row a TRESTORE has read: poisoned, or lost with their granule (R193, R194). -/
structure HalfRow where
  bytes : List Byte
  poison : Bool
  lost : Bool
  deriving DecidableEq, Repr

/-- A TWLOAD, TFILL, TEMIT, TMOVE, TSAVE or TRESTORE in flight: its rows or, of an image, its steps of up to 256 bytes, those begun, the cycle the last one ends in, what it latched at issue or read of the image. -/
structure PortRun where
  cmd : TileCmd
  start : Nat
  rows : Nat
  begun : Nat := 0
  ended : Nat := 0
  cfg : W32 := 0
  marks : Nat := 0
  side : List Nat := []
  half : Option HalfRow := none
  held : Option QEntry := none
  lost : Bool := false
  deriving DecidableEq, Repr

/-- A write that falls due in a cycle. -/
inductive DueWrite where
  | tile (arr t row : Nat) (v : TileRow)
  | shadow (row : Nat) (v : WRow)
  deriving DecidableEq, Repr

/-- A ramp under way (R220 to R223). -/
structure Ramp where
  step : Nat
  stepEnd : Nat
  credit : Nat
  deriving DecidableEq, Repr

/-- A wind-down under way: its step and the cycle that step ends before (R221, R232). -/
structure Wind where
  step : Nat
  stepEnd : Nat
  deriving DecidableEq, Repr

/-- One matrix array with its stores (R183), at its local cycle. Of the present cycle: whether it issued (`issuedAt` is the cycle of its last issue plus 1), the queues it popped, the flags that set in it, the counters that a register write loaded in it (R55, R199, R235, R246). -/
structure TileArray where
  cycle : Nat := 0
  stores : Tbl Nat TileStore := []
  wActive : Bool := false
  wActShape : W32 := 0
  wLoaded : Bool := false
  wShape : W32 := 0
  wShadow : Tbl Nat WRow := []
  gens : List WGen := []
  nextGen : Nat := 0
  cmds : List TileCmd := []
  streams : List StreamRun := []
  feeding : Option Nat := none
  mark : Option Nat := none
  flight : List FlightRow := []
  weight : Option PortRun := none
  port : Option PortRun := none
  drain : Option DrainRun := none
  conv : List (Nat × QEntry) := []
  deskew : List QEntry := []
  due : List (Nat × DueWrite) := []
  clears : List TileOp := []
  held : Bool := false
  ramp : Option Ramp := none
  idle : Nat := 64
  wind : Option Wind := none
  issuedAt : Nat := 0
  popped : List Nat := []
  newFlags : List Nat := []
  lostCounts : List Nat := []
  viewStores : Tbl Nat (W32 × Bool) := []
  viewActive : Bool × W32 := (false, 0)
  viewShadow : Bool × W32 := (false, 0)
  deriving DecidableEq, Repr

/-- A cache sector (R286). -/
structure Sector where
  valid : Bool := false
  dirty : Bool := false
  poison : Bool := false
  data : List Byte := []
  deriving DecidableEq, Repr

/-- A cache line: tag and four sectors (R286). -/
structure Line where
  tag : Nat
  sectors : List Sector
  deriving DecidableEq, Repr

/-- A tray entry (R294): sector number and contents. -/
structure TrayEntry where
  sector : Nat
  data : List Byte
  poison : Bool
  deriving DecidableEq, Repr

/-- A prefetch in flight, for PREF or for a PREFETCH descriptor (R269, R294, R296). -/
structure Prefetch where
  sector : Nat
  desc : Option Nat
  discard : Bool
  deriving DecidableEq, Repr

/-- A full maintenance operation waiting or running (R293): OP of MCACHE_MAINT, whether an instruction started it, whether it runs. -/
structure Maint where
  op : Nat
  byInstr : Bool
  running : Bool
  deriving DecidableEq, Repr

/-- A core's memory cache and prefetch tray. -/
structure MemCache where
  lines : Tbl (Nat × Nat) Line := []
  ptr : Tbl Nat Nat := []
  tray : List TrayEntry := []
  prefetch : List Prefetch := []
  maint : List Maint := []
  deriving DecidableEq, Repr

/-! ## Events (chapter 15) -/

/-- A record on its way (R514); the ring position is added where it is written. `source` is the BAR0 offset of its frame when it was raised. A record from another module keeps its bytes and the module that sent it (R524). -/
structure EvRec where
  code : Nat
  ctx : Nat
  src : FrameId
  source : Nat
  first : W64
  last : W64
  count : W32
  merged : Bool := false
  gapCnt : W32 := 0
  accession : BitVec 16
  payload : List Byte
  remote : Option Nat := none
  raw : List Byte := []
  deriving DecidableEq, Repr

/-- A ring as the root runs it (R521 to R523, R535): latched address and size, what the root wrote and last saw, and whether vector 1 was sent since CONSUMER last changed. -/
structure RingSt where
  addr : Nat
  log2 : Nat
  producer : W32
  lost : W32
  consumer : W32
  signalled : Bool
  deriving DecidableEq, Repr

/-- The event fabric: outboxes by source and code, hub buffers, the root's input buffers by hub (8 for the registrar's own sources, 9 for records from other modules), round-robin positions (8 for the root), returned-mail counts, rings in use, when each region last took its snapshots, and for each store with corrected errors when it was last reported and the corrections counted since (R513 to R526, R535). -/
structure EventSt where
  outbox : Tbl (FrameId × Nat) EvRec := []
  hubs : Tbl Nat (List EvRec) := []
  root : Tbl Nat (List EvRec) := []
  served : Tbl Nat Nat := []
  returned : Tbl FrameId W32 := []
  rings : Tbl Nat RingSt := []
  snaps : Tbl Nat Nat := []
  ecc : Tbl EccSource (Nat × Nat) := []
  deriving DecidableEq, Repr

/-! ## Postmark, catalogue, regions -/

/-- The postmark (R338 to R341, R453): master, region copies, core cycles of each region with the phase left over, and the alignment to other modules: the last alignment and request, the t1 of the request under way, whether the first alignment since module reset has come; and `ran`, the ticks since MODULE_READY, which no step or slew changes: whatever lasts a stated time runs by them (log 129). -/
structure Postmark where
  master : W64 := 0
  copies : Tbl Nat W64 := []
  cycles : Tbl Nat Nat := []
  phase : Tbl Nat Nat := []
  locked : Bool := false
  source : Option Nat := none
  offset : Int := 0
  slew : Int := 0
  slewAt : Nat := 0
  lastAlign : W64 := 0
  lastReq : W64 := 0
  exchange : Option W64 := none
  stepped : Bool := false
  ran : Nat := 0
  deriving DecidableEq, Repr

/-- A core entry of the catalogue (R367): STATE 0 FREE, 1 LENT, 2 MOVING, 3 ABSENT. -/
structure CatCore where
  ctx : Nat := 0
  state : Nat := 0
  gen : BitVec 16 := 0
  deriving DecidableEq, Repr

/-- A granule entry (R367); every granule is lent to context 0 at module reset (R505). -/
structure CatGranule where
  ctx : Nat := 0
  lent : Bool := true
  gen : BitVec 16 := 0
  deriving DecidableEq, Repr

/-- The catalogue (R367); shares by (context, port) and (context, engine). An absent entry holds its state of R505. -/
structure Catalogue where
  cores : Tbl Nat CatCore := []
  granules : Tbl Nat CatGranule := []
  ranges : Tbl (Nat × Nat) (Option Nat) := []
  linkShares : Tbl (Nat × Nat) Nat := []
  upeShares : Tbl (Nat × Nat) Nat := []
  deriving DecidableEq, Repr

/-- A region: the site of each logical core (0xFF absent) and the spare (0x1F none) (R16, R17), whether its memory is fenced (R35), its clock lost (R503), its clock step. -/
structure Region where
  sites : List Nat
  spare : Nat
  fenced : Bool := false
  clockLost : Bool := false
  deriving DecidableEq, Repr

/-- What the block drives outside: PCI Express completions and MSI-X, flits, SMBus data and SMB_ALERT#. -/
inductive OutMsg where
  | completion (fn : Nat) (data : List Byte) (poison : Bool)
  | abort (fn : Nat)
  | unsupported (fn : Nat)
  | registerRead (ag : Agent) (v : W32)
  | busError (ag : Agent)
  | msix (fn vector : Nat)
  | flit (port : Nat) (bits : RowBits)
  | linkUp (port ack : Nat) (credit : List Nat)
  | smbus (data : List Byte)
  | smbNack
  | smbAlert (asserted : Bool)
  deriving DecidableEq, Repr

/-! ## Sync objects (chapter 09) -/

/-- A sync object (R311); its timers and waiters are held apart. -/
structure SyncObj where
  counter : Nat := 0
  target : Nat := 0
  satHi : Bool := false
  satLo : Bool := false
  lastSource : W32 := 0
  lastChange : W64 := 0
  deriving DecidableEq, Repr

/-- A pending SIGNAL.AT (R326): its object, the identifier and the context that named it, its count, when it is due, the core that issued it. -/
structure SyncTimer where
  obj : Nat
  ident : Nat
  n : Nat
  due : W64
  core : Nat
  ctx : Nat
  deriving DecidableEq, Repr

/-- A wait entry (R324), whether a wake message is on its way to it (R323), and the identifier a ring latched for its wait (R424). -/
structure WaitEnt where
  who : Waiter
  obj : Nat
  woken : Bool
  ident : Nat := 0
  deriving DecidableEq, Repr

/-- An operation in a core's sync port (R318): kind 0 ARRIVE, 1 DEPART, 2 SRESET, 3 SIGNAL.AT; the writes its release waits for. -/
structure SyncOp where
  kind : Nat
  ident : Nat
  obj : Nat
  n : Nat
  t : W64
  pc : W64
  before : List PendWrite
  deriving DecidableEq, Repr

/-- A post-mortem dump under way (R334, R335): its context, area, header. -/
structure Dump where
  ctx : Nat
  addr : Nat
  header : List Byte
  deriving DecidableEq, Repr

/-- The sync units: objects by physical number, timers by region, wait entries, ports by core, the last detector report of each region and context (when sent, span start), contexts frozen by the detector, dumps under way. -/
structure SyncSt where
  objs : Tbl Nat SyncObj := []
  timers : Tbl Nat (List SyncTimer) := []
  waits : List WaitEnt := []
  ports : Tbl Nat (List SyncOp) := []
  reports : Tbl (Nat × Nat) (W64 × Option W64) := []
  frozen : List Nat := []
  dumps : List Dump := []
  deriving DecidableEq, Repr

/-! ## Links (chapter 12) -/

/-- A message queued to be sent: virtual channel (4: PM, no credit), context it is accounted to, route mask, whether it is a Registered record, its bytes. -/
structure TxMsg where
  vc : Nat
  ctx : Nat
  mask : Nat
  registered : Bool
  bytes : List Byte
  deriving DecidableEq, Repr

/-- A flit kept for replay (R434): its sequence number, its body with PM and LCTL messages replaced by FILL, where 32 bytes of FILL stand between messages, and whose messages it carries (R333). -/
structure SentFlit where
  seq : Nat
  body : List Byte
  hole : Option Nat := none
  ctxs : List Nat := []
  deriving DecidableEq, Repr

/-- A link port (R425 to R439): state 0 DOWN, 1 TRAINING, 2 UP; working lanes and the mask training latched; when training began and was last tried, and whether an UP port retrains; messages to send and what is left of the one being sent; sequence counts; flits kept and the one to replay next; credit used, granted, freed and reported per channel; what is due in an LCTL; reception: the next flit, whether flits are discarded up to a replay, NAKs sent in a row, NAKs received in a row, an incomplete message, complete messages; new flits since one with room for an LCTL; the arbitration round: flits so far, the bytes of VC0 each context was served and the shares latched as it began; the partner's buffers in credit units; the ACK_SEQ last told; whose message is being sent; since when one waits for credit; the lanes whose RETRAIN is not over. -/
structure Port where
  state : Nat := 0
  lanes : Nat := 0
  allow : Nat := 0xFF
  retraining : Bool := false
  trainStart : Nat := 0
  lastTry : Nat := 0
  closing : Bool := false
  tx : List TxMsg := []
  part : List Byte := []
  txSeq : Nat := 0
  replay : List SentFlit := []
  replayFrom : Option Nat := none
  used : List Nat := [0, 0, 0, 0]
  granted : List Nat := [0, 0, 0, 0]
  freed : List Nat := [0, 0, 0, 0]
  told : List Nat := [0, 0, 0, 0]
  lctlDue : Bool := false
  nakDue : Bool := false
  rxSeq : Nat := 0
  discarding : Bool := false
  naks : Nat := 0
  naksGot : Nat := 0
  sinceHole : Nat := 0
  rxPart : List Byte := []
  rx : List (List Byte) := []
  roundAt : Nat := 0
  served : Tbl Nat Nat := []
  shares : List Nat := []
  limit : List Nat := [2048, 2048, 128, 128]
  toldAck : Nat := 4095
  partCtx : Nat := 255
  stalled : Option Nat := none
  asked : Nat := 0
  deriving DecidableEq, Repr

/-- A remote message without its answer yet: its tag, when a port began to send it (none while it is queued), where a read's data goes, its length. -/
structure Outstanding where
  txn : Nat
  sent : Option Nat
  localPa : Nat
  len : Nat
  deriving DecidableEq, Repr

/-- A stage of a collective engine (R447 to R450): descriptor address, number and bytes; phase 0 waiting on WSYNC, 1 ready, 2 launched, 3 waiting for the ACK of its RSYNC arrival, 4 ended; the destination it translated, when it became ready, what is outstanding and what it has gathered. -/
structure Stage where
  addr : Nat
  num : Nat
  words : List Byte
  phase : Nat
  dstId : Nat := 0
  ready : W64 := 0
  outst : List Outstanding := []
  code : Nat := 0
  detail : Nat := 0
  flags : Nat := 0
  poison : Bool := false
  pre : List (Nat × List Byte × Bool) := []
  deriving DecidableEq, Repr

/-- One report of a lane's decoder that is not clean, for the counts of R436: when, symbols corrected, whether the codeword was lost. -/
structure FecTick where
  at_ : Nat
  corrected : Nat
  lost : Bool
  deriving DecidableEq, Repr

/-- Links and collectives: ports; route and alias tables by (port, number); identifier, rank, jobs by context; stages by (region, context), oldest first; fold generators of the collective engines; the next transaction tag; lanes whose eye is being measured; the decoder reports of each lane's last millisecond. -/
structure LinkSt where
  ports : Tbl Nat Port := []
  routes : Tbl (Nat × Nat) Nat := []
  aliases : Tbl (Nat × Nat) Nat := []
  selfId : Option Nat := none
  rank : Nat := 0
  jobs : Tbl Nat Nat := []
  stages : Tbl (Nat × Nat) (List Stage) := []
  ceGens : Tbl (Nat × Nat) (List W32) := []
  nextTxn : Nat := 0
  margins : Tbl (Nat × Nat) Bool := []
  fec : Tbl (Nat × Nat) (List FecTick) := []
  deriving DecidableEq, Repr

/-! ## Update engines (chapter 11) -/

/-- A descriptor running on an update engine (R391 to R419): its address, number and bytes as run; phase 0 waiting on WSYNC, 1 sweep A, 2 sweep B, 3 pass 2, 4 pass 3, 5 a checkpoint kind or RESTORE, 6 ended and waiting to be completed; the journal's state at a RESUME (`stage`) and the chunk pass 2 starts at; program and constants; the 128 partials of each scalar; scalars and factors; flags; chunks updated; the first poisoned chunk of pass 3; code and detail; for the remote kinds the step reached, the tensor, messages outstanding, running CRCs, the scale exponents and bytes gathered, with the ranges of each that came poisoned; and while a chunk of pass 2 is IN_FLIGHT the results it has still to write, by tensor. -/
structure UpeRun where
  addr : Nat
  num : Nat
  words : List Byte
  phase : Nat
  stage : Nat := 0
  first : Nat := 0
  chunk : Nat := 0
  program : List W32 := []
  consts : List W32 := []
  partials : List (List W64) := []
  scalars : List W64 := List.replicate 8 0
  clip : W32 := 0x3F800000
  trust : W32 := 0x3F800000
  step : W32 := 0
  stepNo : W32 := 0
  flags : Nat := 0
  done : Nat := 0
  poisoned : Option Nat := none
  code : Nat := 0
  detail : Nat := 0
  remote : Nat := 0
  tensor : Nat := 0
  outst : List Outstanding := []
  crcs : List Nat := []
  seTab : List Byte := []
  got : List Byte := []
  gotBad : List (Nat × Nat) := []
  seBad : List (Nat × Nat) := []
  results : Option (List (Nat × List Nat)) := none
  header : List Byte := []
  nonfinite : Bool := false
  deriving DecidableEq, Repr

/-- How an update engine divides its turns (R378, R413): the contexts served in the present round of 16, the shares latched as the round began and when that was; and the rollback under way, its context and chunk (R406, R422). -/
structure Turns where
  served : List Nat := []
  shares : List Nat := []
  began : Nat := 0
  rolling : Option (Nat × Nat) := none
  deriving DecidableEq, Repr

/-! ## Host, dockets, power (chapters 13, 14) -/

/-- A docket that Moant accepted and has not answered: where it came from, its bytes, whether its execution has begun (a core loan that quiesces). -/
structure Docket where
  via : Via
  bytes : List Byte
  begun : Bool := false
  deriving DecidableEq, Repr

/-- A CKPT_SCAN under way (R416, R417): its docket's source, whether the trailers are being read, what is outstanding, the headers and trailers read so far, whether a read failed, when it began. -/
structure Scan where
  via : Via
  trailers : Bool := false
  outst : List Outstanding := []
  headers : List Byte := []
  got : List Byte := []
  failed : Option Nat := none
  started : Nat
  deriving DecidableEq, Repr

/-- An entry of a function's MSI-X table (R460). -/
structure MsixEntry where
  addr : W64 := 0
  data : W32 := 0
  masked : Bool := false
  deriving DecidableEq, Repr

/-- The errors AER reports for a function (R471): completer abort, poisoned TLP and unsupported request are uncorrectable and non-fatal, an internal error is correctable; a malformed TLP is the base specification's (log 82). -/
inductive AerError where
  | completerAbort
  | poisonedTlp
  | unsupportedRequest
  | correctableInternal
  | malformedTlp
  deriving DecidableEq, Repr

/-- PCI Express configuration of a function: Bus Master Enable, which governs MSI-X alone (R461), its MSI-X table and the vectors that fired while they could not be sent, the errors AER holds. Host software programs these before it uses the module; no command does (log 82). -/
structure HostFn where
  busMaster : Bool := true
  msix : List MsixEntry := List.replicate 32 {}
  msixPending : List Nat := []
  aer : List AerError := []
  deriving DecidableEq, Repr

/-- The host port and Moant: the link (up, rate in GT/s halved, width; R460), the functions' configuration, enabled virtual functions, BAR2 sizes in GiB, dockets in order of arrival, replies waiting, the SMBus assembly, its overflow bit and the reply position, firmware levels, whether an image is staged, whether the non-volatile store is being written, whether Moant restarts after the reply, the identifiers that armed watches latched, functions whose reset waits for their docket, whether disabling the virtual functions waits, scans under way. -/
structure HostSt where
  linkUp : Bool := true
  linkRate : Nat := 32
  linkWidth : Nat := 16
  fns : Tbl Nat HostFn := []
  vfs : Nat := 0
  bar2Pf : Nat := 64
  bar2Vf : Nat := 4
  dockets : List Docket := []
  replies : Tbl Via (List Byte) := []
  smbAsm : List Byte := []
  smbOvf : Bool := false
  smbPos : Nat := 0
  fwActive : W32 := 0
  fwStaged : W32 := 0
  fwImage : Bool := false
  nvBusy : Bool := false
  restart : Bool := false
  watchIds : Tbl (Nat × Nat) Nat := []
  flr : List Nat := []
  vfOff : Bool := false
  scans : List Scan := []
  deriving DecidableEq, Repr

/-- An entry of the ageing ledger (R502). -/
structure LedgerEntry where
  minutes : Nat
  slack : Nat
  site : Nat
  drift : Nat
  offset : Nat
  cap : Nat
  deriving DecidableEq, Repr

/-- A trip of record 5 (R493). -/
structure TripEntry where
  row : Nat
  value : Nat
  minutes : Nat
  deriving DecidableEq, Repr

/-- What record 2 of the fuse shadow gives besides sites and repairs: LNK_CAL of each lane (R459), CSV_GUARD of each region, the energies of the activity events by region and number (R548), and which reference tables the conservators use, by the version of the package that gave them (R493, R501). -/
structure FuseShadow where
  lanes : Tbl (Nat × Nat) Nat := []
  guards : Tbl Nat Nat := []
  energies : Tbl (Nat × Nat) Nat := []
  tables : Nat := 0
  deriving DecidableEq, Repr

/-- The strongroom's state (R5, R493, R495, R499, R512): clamp and trip levels in the order of the rows of R495 (0 where a row has none), the input current in milliamperes that stage 1 never lets through (R5, R484), the trims of the input sensors, the stacks whose lanes are repaired (none at first), the fused site map and spare of each region (R18; absent: logical core n at site n, spare site 16; log 13), the rest of record 2 and what the last module reset loaded of it, its own firmware level, ledger, trips, updates. -/
structure Srm where
  serial : W64 := 0
  versions : Tbl Nat Nat := []
  limits : List (Nat × Nat) := [(118000, 0), (6800, 0), (10000, 12000), (5600, 5800), (720, 0), (0, 50000), (105, 110), (95, 105), (115, 125), (0, 0)]
  current : Nat := 120000
  trims : List W32 := [0, 0]
  repairs : List Nat := []
  fuse : Tbl Nat (List Nat × Nat) := []
  record2 : FuseShadow := {}
  shadow : FuseShadow := {}
  firmware : W32 := 0
  ledger : Tbl Nat LedgerEntry := []
  daily : Tbl Nat (List LedgerEntry) := []
  trips : List TripEntry := []
  updates : List Bool := []
  testEnable : Bool := false
  testHistory : List Bool := []
  tripCount : Nat := 0
  denied : Nat := 0
  deriving DecidableEq, Repr

/-- A region's conservator (R500 to R502): operating minutes up to the last module reset, frequency cap, measured slacks by site, margin table, its operating time at the last plan, since when the clock step holds, whether a re-plan is requested, whether slacks were measured, the last drift, since when the region's clock is lost and for how long it was before, in ns (R501). -/
structure Conservator where
  minutes : Nat := 0
  cap : Nat := 56
  slacks : Tbl Nat Nat := []
  table : List Nat := []
  lastPlan : Nat := 0
  stepSince : Nat := 0
  request : Bool := false
  measured : Bool := false
  drift : Nat := 0
  stopped : Option Nat := none
  paused : Nat := 0
  deriving DecidableEq, Repr

/-- A rail that slews: its voltage in millivolts when its target was set, the target, and when (R486). -/
structure Slew where
  mv : Nat
  target : Nat
  since : Nat
  deriving DecidableEq, Repr

/-- The rails in the order in which they start (R508), by the indices of R485: VBUS, VREG, VFAB, VSER, the VSTK, the VCORE. -/
def railOrder : List Nat := [0, 19, 17, 18, 9, 10, 11, 12, 13, 14, 15, 16, 1, 2, 3, 4, 5, 6, 7, 8]

/-- Power and reset (R483 to R511): supply and reset pins, whether stage 1 has started, whether all rails are good and which are up, in the order they came up, whether a module reset is due, runs, or is complete; the trip that holds the module (row, value, sample) and whether its cause still stands; the strongroom's samples so far, one per microsecond; the sample in which a clamp was last called for; what the clamp and trip comparisons remember, in microseconds, and how long the input has stayed in the window of R484; the 1 us samples and the 10 us periods of the last 100 ms, newest first; when the arbiter last planned, its excursions; grants, clock steps, the step each region is to reach in this period, the caps and margin tables the arbiters apply (R501), the VCORE rails (absent: at the table voltage of 400 MHz); activity of each block in microwatts, block grants, the cores whose share is lent with the demand each had (R488, R329), gating; readings, the sample in which the rails' shells last reported and their reports, newest first. -/
structure Power where
  standby : Bool := true
  moant : Bool := true
  perst : Bool := false
  input : Bool := true
  softStart : Bool := true
  rails : Bool := true
  railsUp : List Nat := railOrder
  armed : Bool := false
  resetting : Bool := false
  ready : Bool := true
  trip : Option (Nat × Nat × Nat) := none
  tripStands : Bool := false
  sampled : Nat := 0
  clamp : Option Nat := none
  clampRow : Nat := 0
  lowFor : Nat := 0
  highFor : Nat := 0
  overFor : Nat := 0
  hotFor : Nat := 0
  inWindow : Nat := 10000
  window : List Nat := []
  hostLimit : Nat := 5600
  periods : List Nat := []
  lastArb : Option Nat := none
  excursion : Option Nat := none
  lastExcursion : Option Nat := none
  grants : List Nat := List.replicate 8 0
  steps : List Nat := List.replicate 8 0
  goals : List Nat := List.replicate 8 0
  caps : List Nat := List.replicate 8 56
  tables : Tbl Nat (List Nat) := []
  vcore : Tbl Nat Slew := []
  activity : Tbl (Nat × Nat) Nat := []
  blockGrants : Tbl (Nat × Nat) Nat := []
  lent : Tbl Nat Nat := []
  gates : Tbl (Nat × Nat) Nat := []
  mv : Nat := 0
  ma : Nat := 0
  watts : Nat := 0
  mean : Nat := 0
  hottest : Nat := 0
  railAt : Nat := 0
  railLog : List (List RailReading) := []
  stackTemps : Tbl (Nat × Nat) Nat := []
  deriving DecidableEq, Repr

/-! ## The state -/

/-- Everything the spec gives the module, and the queue of waiting commands. `turns` holds each update engine's present round (R413). `blocked` is the model's own: it tells, while a command runs, that a frozen stack controller has not accepted one of its accesses (R61; log 133). -/
structure State where
  pending : List Instr
  freeCtr : Nat
  frames : Tbl FrameId Frame
  cores : Tbl Nat Core
  arrays : Tbl (Nat × Nat) TileArray
  aes : Tbl Nat Ae
  caches : Tbl Nat MemCache
  mem : Memory
  memPoison : List Nat
  active : Tbl (Nat × Nat) W64
  pm : Postmark
  cat : Catalogue
  regions : Tbl Nat Region
  ev : EventSt
  sync : SyncSt
  upes : Tbl (Nat × Nat) UpeRun
  turns : Tbl Nat Turns
  links : LinkSt
  host : HostSt
  srm : Srm
  csvs : Tbl Nat Conservator
  pwr : Power
  out : List OutMsg
  blocked : Bool
  deriving DecidableEq, Repr

/-- The record MODULE_READY, raised as the module reset completes (R509, R515): it waits in the root's input from the registrar's own sources. -/
def readyRecord : EvRec :=
  { code := 0x20A, ctx := 0xFF, src := .mpwr, source := 0x8000, first := 0, last := 0, count := 1, accession := 0, payload := List.replicate 24 0 }

/-- THE STATE AFTER RESET: a module whose power-on and module reset have completed (R505, R509; log 20). Every register holds its reset value, the catalogue its state of R505, the postmark 0, memory nothing listed, the queue no command. -/
def State.reset : State :=
  { pending := [], freeCtr := 0, frames := [], cores := [], arrays := [], aes := [], caches := [], mem := [], memPoison := []
    active := [], pm := {}, cat := {}, regions := [], ev := { root := [(8, [readyRecord])] }, sync := {}, upes := [], turns := [], links := {}
    host := {}, srm := {}, csvs := [], pwr := {}, out := [], blocked := false }

end Sys2Proof.Machine
end

