-- ==== Sys2Proof/Machine/Regs.lean ====
section
/-! DEFINITION. The register map (chapter 17) and what every register frame does by itself (chapter 02): stored fields, status registers with accession numbers, 48-bit counters, hidden parity, captures. -/
namespace Sys2Proof.Machine

/-- How a register holds its bits. -/
inductive RegKind where
  | plain    -- stored bits; the RW mask says which a write reaches
  | status   -- R53: accession and flags
  | ctrLo    -- low word of a 48-bit counter (R235)
  | ctrHi    -- its high word
  | live     -- read only, computed from the state it reports
  | wo       -- write only
  | sc       -- self-clearing bits beside stored ones
  deriving DecidableEq, Repr

/-- One row of the register map: kind, writable mask (or implemented flags of a status register), reset value. -/
structure RegInfo where
  kind : RegKind
  mask : Nat
  reset : Nat
  deriving DecidableEq, Repr

/-- A register with RW bits. -/
def rRw (mask reset : Nat) : Option RegInfo := some ⟨.plain, mask, reset⟩
/-- A read-only register whose bits a unit stores. -/
def rRo (reset : Nat) : Option RegInfo := some ⟨.plain, 0, reset⟩
/-- A read-only register computed when read. -/
def rLive : Option RegInfo := some ⟨.live, 0, 0⟩
/-- A status register. -/
def rStatus (mask : Nat) : Option RegInfo := some ⟨.status, mask, 0⟩
/-- A write-only register. -/
def rWo (mask : Nat) : Option RegInfo := some ⟨.wo, mask, 0⟩
/-- The two words of a counter at `base`. -/
def rCtr (base off : Nat) : Option RegInfo :=
  if off = base then some ⟨.ctrLo, 0xFFFFFFFF, 0⟩ else some ⟨.ctrHi, 0xFFFF, 0⟩

/-- Whether `off` is a word of one of `n` counters 8 bytes apart from `base`. -/
def inCtrs (base n off : Nat) : Bool := decide (base ≤ off) && decide (off < base + 8 * n) && decide (off % 4 = 0)

/-- The counter base of an offset inside a run of counters. -/
def ctrBase (off : Nat) : Nat := off - off % 8

/-- Registers of a function frame (R468, R540). -/
def regsFunc (off : Nat) : Option RegInfo :=
  match off with
  | 0x0 => rLive | 0x10 => rStatus 0x3F | 0x14 => rRo 0 | 0x18 => rRo 0 | 0x1C => rRo 0 | 0x20 => rRw 0x7FF 0
  | _ => if 0x100 ≤ off ∧ off < 0x180 then (if off % 8 = 0 then rRw 0x80000FFF 0 else rRw 0x7FFFFFFF 0) else none

/-- Registers of a letterbox frame (R473). -/
def regsLb (off : Nat) : Option RegInfo :=
  match off with
  | 0x0 => rWo 1 | 0x4 => rLive | 0x8 => rWo 1 | 0x10 => rStatus 3
  | _ => if 0x800 ≤ off ∧ off < 0xC00 then rRw 0xFFFFFFFF 0
         else if 0xC00 ≤ off ∧ off < 0x1000 then rLive else none

/-- Registers of the module power frame (R510, R511). -/
def regsMpwr (off : Nat) : Option RegInfo :=
  match off with
  | 0x0 => rStatus 0x1F | 0x4 => rLive | 0x10 => rLive | 0x14 => rLive | 0x18 => rLive | 0x1C => rLive | 0x20 => rLive
  | _ => if 0x100 ≤ off ∧ off < 0x240 ∧ off % 16 ≠ 12 then rLive else none

/-- Registers of the registrar event frame (R535). -/
def regsRevt (off : Nat) : Option RegInfo :=
  match off with
  | 0x0 => rStatus 0xF | 0x4 => rRo 0 | 0x8 => rRo 0 | 0x40 => rStatus 3
  | 0x800 => rRw 0x13FFF 0 | 0x804 => rRo 0
  | _ =>
    if inCtrs 0x20 4 off then rCtr (ctrBase off) off
    else if 0x100 ≤ off ∧ off < 0x500 then
      (match off % 16 with
       | 0 => rRw 0xFFFFF000 0 | 4 => rRw 0x1FF 0 | 8 => rRw 0x8000001F 0xA | _ => none)
    else none

/-- Registers of the strongroom view (R512). -/
def regsSrm (off : Nat) : Option RegInfo :=
  if off < 0x10 then rLive else if 0x100 ≤ off ∧ off < 0x128 then rLive else none

/-- Registers of a region event frame (R535). -/
def regsEvt (off : Nat) : Option RegInfo :=
  match off with
  | 0x0 => rStatus 0xF | 0x4 => rRo 0 | 0x8 => rRo 0 | 0x10 => rRw 0xFFFF03 0xA00
  | _ => if inCtrs 0x20 4 off then rCtr (ctrBase off) off else none

/-- Registers of a region control frame (R16, R17). -/
def regsRctl (off : Nat) : Option RegInfo :=
  match off with
  | 0x100 => rLive | 0x104 => rLive | 0x108 => rLive | 0x10C => rLive | 0x110 => rLive | _ => none

/-- Registers of a region power frame (R511). -/
def regsRpwr (off : Nat) : Option RegInfo :=
  match off with
  | 0x0 => rLive | 0x4 => rLive | 0x8 => rRw 0x3F 0x38 | 0x10 => rLive | 0x14 => rLive | _ => none

/-- Registers of a sync frame (R346 to R348). -/
def regsSync (off : Nat) : Option RegInfo :=
  match off with
  | 0x0 => rStatus 0xFF | 0x4 => rRw 0xFFFFFF 0x2710 | 0x8 => rLive | 0xC => rLive | 0x10 => rLive
  | 0x20 => rLive | 0x24 => rLive
  | _ => if 0x100 ≤ off ∧ off < 0x300 then (if off % 8 = 0 then rRw 0xFFFFF000 0 else rRw 0x1FF 0) else none

/-- Registers of a control unit frame (R542). -/
def regsCu (off : Nat) : Option RegInfo :=
  match off with
  | 0x0 => rRo 0x101 | 0x200 => rStatus 0x1FFF | 0x210 => rRw 0xFFFFFFFF 0 | 0x220 => rRw 0xFFFE 1
  | 0x224 => rLive | 0x228 => rStatus 0x7F | 0x230 => rRw 0x3FF 512
  | 0x240 => rRw 0x800F1FFF 0 | 0x244 => rRw 0x800F1FFF 0 | 0x250 => rStatus 0xFF | 0x254 => rStatus 0xFFFF
  | 0x400 => rRw 0x7FFC0 0x40000 | 0x404 => rRw 0x7FFC0 0x40000 | 0x408 => rRw 0x7FFC0 0x50000
  | 0x410 => rRw 0x7FC00 0x50000 | 0x414 => rRw 0x7FC00 0x50000 | 0x418 => rRw 0x7FC00 0x70000
  | 0x420 => rRw 0xFF000 0x40000
  | 0x440 => rRw 0xFFFFFFFF 0xFFFFFFFF | 0x444 => rRw 0xFFFFFFFF 0xFFFFFFFF
  | 0x448 => rRw 0xFFFFFFFF 0xFFFFFFFF | 0x44C => rRw 0xFFFFFFFF 0xFFFFFFFF
  | 0x460 => rRw 0xFFF01 0x1400
  | 0x500 => rRw 0xF 0x13 | 0x504 => rLive | 0x508 => rRw 0x3FFFFFFF 0x3FFFFFFF | 0x50C => rRw 7 7
  | 0x510 => rLive | 0x514 => rLive | 0x518 => rRw 0xFFFFFFFC 0 | 0x51C => rRw 0xFFFF 0
  | 0x520 => rRw 0xFFFFFFFC 0 | 0x524 => rRw 0xFFFF 0 | 0x528 => rRw 0xFFFFF 0x7FF00 | 0x52C => rRw 0xFFFFF 0x70000
  | 0x530 => rRw 0xFFFFFFFF 0xFFFFFFFF | 0x534 => rRw 0xFFFFFFFF 0xFFFFFFFF | 0x538 => rWo 0xFFFF
  | _ => if inCtrs 0x480 3 off || inCtrs 0x4A0 6 off then rCtr (ctrBase off) off else none

/-- Registers of a tile frame (R231 to R235). -/
def regsTcu (off : Nat) : Option RegInfo :=
  match off with
  | 0x0 => rLive | 0x4 => rRw 0x7F 48 | 0x10 => rStatus 0x3F | 0x140 => rLive | 0x144 => rLive
  | _ => if inCtrs 0x200 4 off then rCtr (ctrBase off) off
         else if 0x100 ≤ off ∧ off < 0x128 then rLive else none

/-- Registers of an access engine frame (R304 to R308). A RESTART register reads its reset value 0 (R539, R543): what is written to it starts an action and is not kept. -/
def regsAe (off : Nat) : Option RegInfo :=
  match off with
  | 0x0 => rRw 0xFFFFF000 0 | 0x4 => rRw 0xFFFF 0 | 0x8 => rRw 0x7F 16 | 0xC => some ⟨.sc, 0, 0⟩
  | 0x10 => rStatus 0x3F | 0x20 => rLive | 0x30 => rLive | 0x34 => rLive | 0x38 => rLive | 0x3C => rLive
  | 0x40 => rWo 0xFFFF
  | _ =>
    if 0x100 ≤ off ∧ off < 0x300 then
      (if off % 32 < 0x10 then rLive else if off % 32 = 0x10 then some ⟨.sc, 0, 0⟩ else none)
    else if inCtrs 0x400 5 off then rCtr (ctrBase off) off else none

/-- Registers of a memory cache frame (R309, R310). -/
def regsMc (off : Nat) : Option RegInfo :=
  match off with
  | 0x0 => rRw 3 2 | 0x4 => rLive | 0x10 => rStatus 0xF
  | _ => if inCtrs 0x100 2 off then rCtr (ctrBase off) off else none

/-- Registers of a stack controller frame (R544, R545). -/
def regsStk (off : Nat) : Option RegInfo :=
  match off with
  | 0x10 => rRo 0 | 0x40 => rStatus 0x3F
  | _ => if inCtrs 0x100 2 off then rCtr (ctrBase off) off else none

/-- The ring registers shared by update engines and collective engines, from 0x400, 16 bytes each (R424, R446). -/
def regsRing (off : Nat) : Option RegInfo :=
  match off % 16 with
  | 0 => rRw 0xFFFFF000 0 | 4 => rRw 0x1FF 0 | 8 => rRw 0x8000FFFF 0x4000 | 12 => rRo 0 | _ => none

/-- Registers of an update engine frame (R421 to R424). -/
def regsUpe (off : Nat) : Option RegInfo :=
  match off with
  | 0x0 => rRw 1 0 | 0x4 => rLive | 0x10 => rStatus 0x3F
  | _ => if 0x400 ≤ off ∧ off < 0x800 then regsRing off
         else if 0x800 ≤ off ∧ off < 0xA00 then rRw 0xFFFFFFFF 0
         else if inCtrs 0xC00 2 off then rCtr (ctrBase off) off else none

/-- Registers of a port frame (R457, R458). -/
def regsPort (off : Nat) : Option RegInfo :=
  match off with
  | 0x0 => rRw 1 0 | 0x4 => rLive | 0x8 => rRw 0xFF 0xFF | 0xC => rRw 0xFFFF 0xFFFF | 0x10 => rStatus 0x1F | 0x20 => rLive
  | _ => if inCtrs 0x100 7 off then rCtr (ctrBase off) off else none

/-- Registers of a lane shell (R459). -/
def regsLane (off : Nat) : Option RegInfo :=
  match off with
  | 0x0 => some ⟨.sc, 0, 0⟩ | 0x4 => rRw 0x80FFFFFF 0 | 0x8 => rRo 0 | 0x10 => rRw 0xFFFF 0 | 0x20 => some ⟨.sc, 0, 0⟩
  | _ => if inCtrs 0x100 2 off then rCtr (ctrBase off) off else none

/-- Registers of a collective engine frame (R446, R458, R459). -/
def regsCe (off : Nat) : Option RegInfo :=
  match off with
  | 0x0 => rRw 1 0 | 0x4 => rLive | 0x10 => rStatus 0x1F
  | _ => if 0x400 ≤ off ∧ off < 0x800 then regsRing off
         else if 0x800 ≤ off ∧ off < 0x900 then rRw 0xFFFFFFFF 0
         else if inCtrs 0xC00 3 off then rCtr (ctrBase off) off else none

/-- RW bits of the perturbation registers; every other bit and offset is a WB test control (R64, R529). -/
def ptbMask (off : Nat) : Nat :=
  match off with
  | 0x10 => 0x80FFFFFF | 0x14 => 0x80010FFF | 0x18 => 0x800000F1 | 0x1C => 0x800000FF | 0x20 => 0xFFFFFF | _ => 0

/-- Reset value of a register of a privileged frame: named fields 0 (or the fuse value), test controls Config's (R65, R548). -/
def privReset (kind d off : Nat) (mask named : Nat) : Nat :=
  (((Config.testControl kind d off).toNat &&& (0xFFFFFFFF ^^^ mask)) ||| (named &&& mask))

/-- Registers of a perturbation frame; bit 31 of PTB_FLIP is self-clearing. -/
def regsPtb (d off : Nat) : Option RegInfo :=
  if off = 0x20 then some ⟨.plain, 0x7FFFFFFF, privReset 0 d off 0x80FFFFFF 0⟩
  else some ⟨.plain, 0xFFFFFFFF, privReset 0 d off (ptbMask off) 0⟩

/-- Registers of a conservator frame (R512). -/
def regsCsv (off : Nat) : Option RegInfo :=
  match off with
  | 0x0 => rStatus 7 | 0x4 => some ⟨.sc, 0, 0⟩ | 0x8 => rRw 0xFF 20 | 0xC => rLive
  | _ => if 0x100 ≤ off ∧ off < 0x144 then rRo 0
         else if 0x200 ≤ off ∧ off < 0x2E4 then rLive else none

/-- Registers of a conservator calibration frame (R548): CSV_GUARD and CSV_EVENT_PJe [15:0] come from the fuse shadow (`State.resetOf`); bits not named are WB test controls (R64, R547). -/
def regsCsvCal (d off : Nat) : Option RegInfo :=
  if 0x100 ≤ off ∧ off < 0x180 then some ⟨.plain, 0xFFFF0000, privReset 1 d off 0xFFFF 0⟩
  else some ⟨.plain, 0xFFFFFFFF, privReset 1 d off (if off = 0 then 0xFF else 0) 0⟩

/-- Registers of the strongroom calibration frame: two named trims, which the strongroom holds, test controls elsewhere; nothing is writable (R66). -/
def regsSrmCal (off : Nat) : Option RegInfo :=
  if off < 8 then rLive else rRo (Config.testControl 2 0 off).toNat

/-- The register map: what stands at plain offset `off` of a frame, none where no register is implemented (R62). -/
def regInfo (f : FrameId) (off : Nat) : Option RegInfo :=
  if off % 4 ≠ 0 ∨ 0x1000 ≤ off then none
  else match f with
  | .func _ => regsFunc off
  | .lb _ => regsLb off
  | .mpwr => regsMpwr off
  | .revt => regsRevt off
  | .srm => regsSrm off
  | .srmCal => regsSrmCal off
  | .rctl _ => regsRctl off
  | .rpwr _ => regsRpwr off
  | .evt _ => regsEvt off
  | .sync _ => regsSync off
  | .cu _ => regsCu off
  | .tcu _ _ => regsTcu off
  | .ae _ => regsAe off
  | .mc _ => regsMc off
  | .stk _ _ => regsStk off
  | .upe _ _ => regsUpe off
  | .port _ => regsPort off
  | .lane _ _ => regsLane off
  | .ce _ => regsCe off
  | .ptb d => regsPtb d off
  | .csv _ => regsCsv off
  | .csvCal d => regsCsvCal d off

/-- Whether a frame is one of the three privileged frames (R64). -/
def FrameId.privileged : FrameId → Bool
  | .ptb _ => true
  | .csvCal _ => true
  | .srmCal => true
  | _ => false

/-! ## Frames in the state -/

/-- The frame of a unit. -/
def State.frame (s : State) (f : FrameId) : Frame := tget s.frames f {}

/-- Replace the frame of a unit. -/
def State.setFrame (s : State) (f : FrameId) (fr : Frame) : State := { s with frames := tset s.frames f fr }

/-- Change the frame of a unit. -/
def State.modFrame (s : State) (f : FrameId) (g : Frame → Frame) : State := s.setFrame f (g (s.frame f))

/-- The reset of a unit gives its frame reset values, clears its status machinery and releases its freeze (R54, R61). -/
def State.resetFrame (s : State) (f : FrameId) : State := { s with frames := tdel s.frames f }

/-- The reset value of a register. -/
def regReset (f : FrameId) (off : Nat) : Nat :=
  match regInfo f off with
  | some i => i.reset
  | none => 0

/-- A stored register. -/
def Frame.reg (fr : Frame) (f : FrameId) (off : Nat) : Nat :=
  (tget fr.regs off (BitVec.ofNat 32 (regReset f off))).toNat

/-- Store a register as the unit itself does. -/
def Frame.setReg (fr : Frame) (off v : Nat) : Frame := { fr with regs := tset fr.regs off (BitVec.ofNat 32 v) }

/-- The reset value of a register in a module: what the fuse shadow gives, as the last module reset loaded it, in the bits it gives (R459, R539, R548); else the map's. -/
def State.resetOf (s : State) (f : FrameId) (off : Nat) : Nat :=
  match f with
  | .lane p l => if off = 0x10 then tget s.srm.shadow.lanes (p, l) 0 % 65536 else regReset f off
  | .csvCal d =>
    if off = 0 then regReset f off ||| tget s.srm.shadow.guards d 0 % 256
    else if 0x100 ≤ off ∧ off < 0x180 then regReset f off ||| tget s.srm.shadow.energies (d, (off - 0x100) / 4) 0 % 65536
    else regReset f off
  | _ => regReset f off

/-- A stored register of a frame in the state. -/
def State.reg (s : State) (f : FrameId) (off : Nat) : Nat := (tget (s.frame f).regs off (BitVec.ofNat 32 (s.resetOf f off))).toNat

/-- Store a register in the state. -/
def State.setReg (s : State) (f : FrameId) (off v : Nat) : State := s.modFrame f (fun fr => fr.setReg off v)

/-- Whether a unit itself is frozen (R61). -/
def State.ownFrozen (s : State) (f : FrameId) : Bool := (s.frame f).frozen

/-! ## Status registers (R53 to R57) -/

/-- The stamp a set flag keeps when the counter reaches `c`: never more than 32,767 behind (R57). -/
def ageStamp (c st : BitVec 16) : BitVec 16 := if st = c - 32768 then c - 32767 else st

/-- Set one flag: the counter rises, every set flag's stamp is aged, the flag takes the new accession (R55, R57). -/
def Frame.raise (fr : Frame) (off bit : Nat) : Frame :=
  let c := fr.accession + 1
  { fr with
    accession := c
    flags := tset fr.flags off (tget fr.flags off 0 ||| BitVec.ofNat 16 (2 ^ bit))
    stamps := tset (fr.stamps.map (fun e => (e.1, ageStamp c e.2))) (off, bit) c }

/-- Set the flags of a mask in ascending bit order, each with its own accession (R55, R96). -/
def Frame.raiseMask (fr : Frame) (off : Nat) : Nat → Nat → Frame
  | _, 0 => fr
  | m, n + 1 => let fr' := fr.raiseMask off m n; if m.testBit n then fr'.raise off n else fr'

/-- Raise one status flag of a unit. -/
def State.raise (s : State) (f : FrameId) (off bit : Nat) : State := s.modFrame f (fun fr => fr.raise off bit)

/-- Raise several status flags of a unit. -/
def State.raiseMask (s : State) (f : FrameId) (off mask : Nat) : State := s.modFrame f (fun fr => fr.raiseMask off mask 16)

/-- Array `a` of core `k`. -/
def State.arr (s : State) (k a : Nat) : TileArray := tget s.arrays (k, a) {}
/-- Replace an array. -/
def State.setArr (s : State) (k a : Nat) (x : TileArray) : State := { s with arrays := tset s.arrays (k, a) x }
/-- Change an array. -/
def State.modArr (s : State) (k a : Nat) (f : TileArray → TileArray) : State := s.setArr k a (f (s.arr k a))

/-- A flag of TCU_STAT sets in the array's present cycle: it is numbered when that cycle is over, one accession for each event (R55, R233). -/
def State.flagNow (s : State) (k a bit : Nat) : State := s.modArr k a (fun y => { y with newFlags := bit :: y.newFlags })

/-- The flags of a cycle set, in bit order. DESIGN CHOICE (log 136): a read of TCU_STAT that comes before the cycle's end sees the flags noted so far, numbered among themselves. -/
def State.flagsDue (s : State) (k a : Nat) : State :=
  let due := (s.arr k a).newFlags
  let s := s.modArr k a (fun y => { y with newFlags := [] })
  ((List.range 6).flatMap (fun b => due.filter (· == b))).foldl (fun t b => t.raise (.tcu k a) 0x10 b) s

/-- A status register as read: accession above, flags below (R53). -/
def Frame.status (fr : Frame) (off : Nat) : Nat := fr.accession.toNat * 65536 + (tget fr.flags off 0).toNat

/-- Whether writing accession `n` clears a flag with stamp `st` (R56). -/
def clears (n st : BitVec 16) : Bool := decide ((n - st).toNat < 32768)

/-- The flags that a write of `v` clears among the first `n` bits (R56). -/
def Frame.cleared (fr : Frame) (off v : Nat) : Nat → Nat
  | 0 => 0
  | n + 1 =>
    fr.cleared off v n +
      (if v.testBit n && (tget fr.flags off 0).toNat.testBit n && clears (BitVec.ofNat 16 (v / 65536)) (tget fr.stamps (off, n) 0)
       then 2 ^ n else 0)

/-- A write to a status register (R56). -/
def Frame.writeStatus (fr : Frame) (off v : Nat) : Frame :=
  let m := fr.cleared off v 16
  { fr with flags := tset fr.flags off (tget fr.flags off 0 &&& ~~~(BitVec.ofNat 16 m)) }

/-! ## 48-bit counters (R235, R531) -/

/-- The value of the counter whose low word is at `off`. -/
def Frame.ctr (fr : Frame) (f : FrameId) (off : Nat) : Nat := fr.reg f off + 2 ^ 32 * fr.reg f (off + 4)

/-- Store a counter, modulo 2^48. -/
def Frame.setCtr (fr : Frame) (off v : Nat) : Frame :=
  (fr.setReg off (v % 2 ^ 32)).setReg (off + 4) (v / 2 ^ 32 % 2 ^ 16)

/-- Add to a counter, wrapping modulo 2^48 (R531). -/
def State.bump (s : State) (f : FrameId) (off n : Nat) : State :=
  if n = 0 then s else s.modFrame f (fun fr => fr.setCtr off (fr.ctr f off + n))

/-! ## Hidden parity (R58 to R60) -/

/-- The RW bits of a register: what an alias write reaches (R47); WB bits of the privileged frames are not among them. -/
def rwMask (f : FrameId) (off : Nat) : Nat :=
  match regInfo f off with
  | some i =>
    (match i.kind with
     | .plain => (match f with
       | .ptb _ => ptbMask off &&& i.mask
       | .csvCal _ => if off = 0 then 0xFF else 0
       | _ => i.mask)
     | .ctrLo => i.mask
     | .ctrHi => i.mask
     | _ => 0)
  | none => 0

/-- Whether a register carries a parity bit: it has an RW field. -/
def hasParity (f : FrameId) (off : Nat) : Bool := rwMask f off != 0

/-- A performed write recomputes the parity bit (R58), so that a later mismatch is reported anew (R60). -/
def Frame.fixParity (fr : Frame) (off : Nat) : Frame :=
  { fr with badParity := setDel fr.badParity off, reported := setDel fr.reported off }

/-! ## BAR0 offsets (R537, R538) -/

/-- The region of a core. -/
def regionOf (k : Nat) : Nat := k / 16

/-- Module ports of each region and their local index (R38). -/
def portRegion (p : Nat) : Nat × Nat :=
  match p with
  | 0 => (0, 0) | 1 => (1, 0) | 2 => (1, 1) | 3 => (2, 0) | 4 => (2, 1) | 5 => (3, 0)
  | 6 => (4, 0) | 7 => (5, 0) | 8 => (5, 1) | 9 => (6, 0) | 10 => (6, 1) | _ => (7, 0)

/-- The port bonded out at a region's local index (R38, R39). -/
def portAt (d i : Nat) : Option Nat := (List.range 12).find? (fun p => portRegion p == (d, i))

end Sys2Proof.Machine
end

