-- ==== Sys2Proof/Machine/EventOps.lean ====
section
/-! DEFINITION. Raising an event: outboxes, merging, the first hop's buffers, returned mail (R513 to R520); reading the postmark copies. -/
namespace Sys2Proof.Machine

/-- The postmark copy of a region (R338). -/
def State.copyOf (s : State) (d : Nat) : W64 := tget s.pm.copies d s.pm.master

/-- The core cycles of a region so far. -/
def State.cyclesOf (s : State) (d : Nat) : Nat := tget s.pm.cycles d 0

/-- A region's state. -/
def State.region (s : State) (d : Nat) : Region := tget s.regions d ⟨List.range 16, 16, false, false⟩

/-- The frames of the block a unit stands in, or of the port a lane belongs to: they freeze it with them (R6, R61). -/
def parentFrame : FrameId → Option FrameId
  | .tcu k _ => some (.cu k)
  | .ae k => some (.cu k)
  | .mc k => some (.cu k)
  | .upe d j => some (.stk d j)
  | .lane p _ => some (.port p)
  | _ => none

/-- Replace a region's state. -/
def State.setRegion (s : State) (d : Nat) (r : Region) : State := { s with regions := tset s.regions d r }

/-- The site that carries a module core, 0xFF when absent (R15, R16). -/
def State.siteOf (s : State) (k : Nat) : Nat := (s.region (regionOf k)).sites.getD (k % 16) 0xFF

/-- BAR0 offset of a region. -/
def regionBase (d : Nat) : Nat := 0x1000000 + d * 0x1000000

/-- BAR0 offset of the site frames of a core. -/
def State.coreBase (s : State) (k : Nat) : Nat := regionBase (regionOf k) + 0x100000 + s.siteOf k * 0x40000

/-- BAR0 offset of a port's frames (R38). -/
def portBase (p : Nat) : Nat := regionBase (portRegion p).1 + 0xA00000 + (portRegion p).2 * 0x40000

/-- BAR0 offset of a frame (R537, R538); the frames of virtual functions stand under their own BAR0 (R549). -/
def State.bar0 (s : State) : FrameId → Nat
  | .func _ => 0
  | .lb _ => 0x4000
  | .mpwr => 0x8000
  | .revt => 0xC000
  | .srm => 0x100000
  | .srmCal => 0x104000
  | .rctl d => regionBase d
  | .rpwr d => regionBase d + 0x4000
  | .evt d => regionBase d + 0x8000
  | .cu k => s.coreBase k
  | .tcu k a => s.coreBase k + 0x10000 + a * 0x4000
  | .ae k => s.coreBase k + 0x20000
  | .mc k => s.coreBase k + 0x24000
  | .stk d j => regionBase d + 0x800000 + j * 0x10000
  | .upe d j => regionBase d + 0x800000 + j * 0x10000 + 0x8000
  | .port p => portBase p
  | .lane p l => portBase p + 0x4000 + l * 0x4000
  | .ce d => regionBase d + 0xA80000
  | .sync d => regionBase d + 0xC00000
  | .ptb d => regionBase d + 0xE00000
  | .csv d => regionBase d + 0xE04000
  | .csvCal d => regionBase d + 0xE08000

/-- The hop a source feeds: its region's hub, or 8 for the root (R513). -/
def hopOf : FrameId → Nat
  | .rctl d => d
  | .rpwr d => d
  | .evt d => d
  | .sync d => d
  | .cu k => regionOf k
  | .tcu k _ => regionOf k
  | .ae k => regionOf k
  | .mc k => regionOf k
  | .stk d _ => d
  | .upe d _ => d
  | .port p => (portRegion p).1
  | .lane p _ => (portRegion p).1
  | .ce d => d
  | .ptb d => d
  | .csv d => d
  | .csvCal d => d
  | _ => 8

/-- Whether a unit is frozen: itself, with its block, or with its region, which a quarantine holds (R35, R61, R503). -/
def State.frozen (s : State) (f : FrameId) : Bool :=
  s.ownFrozen f || (match parentFrame f with | some g => s.ownFrozen g | none => false) || (decide (hopOf f < 8) && (s.region (hopOf f)).fenced)

/-- The event frame of a hop. -/
def evtFrame (h : Nat) : FrameId := if h < 8 then .evt h else .revt

/-- The class of an event code (R515): 0 Registered, 1 First, 2 Bulk. -/
def classOf (code : Nat) : Nat := code / 256 - 1

/-- The buffers of a source's first hop: a hub's, or the root's input for the registrar's own sources. -/
def State.hopBuf (s : State) (h : Nat) : List EvRec := if h < 8 then tget s.ev.hubs h [] else tget s.ev.root 8 []

/-- Replace the buffers of a first hop. -/
def State.setHopBuf (s : State) (h : Nat) (l : List EvRec) : State :=
  if h < 8 then { s with ev := { s.ev with hubs := tset s.ev.hubs h l } }
  else { s with ev := { s.ev with root := tset s.ev.root 8 l } }

/-- Whether 16 buffers holding `n` records accept one of a class (R517). -/
def accepts (cls n : Nat) : Bool :=
  match cls with
  | 0 => decide (n < 16)
  | 1 => decide (n + 1 + 4 ≤ 16)
  | _ => decide (n + 1 + 12 ≤ 16)

/-- The entry of a hop's outboxes that is offered next: lowest class, then oldest FIRST (R516). -/
def bestEntry (h : Nat) : Tbl (FrameId × Nat) EvRec → Option ((FrameId × Nat) × EvRec)
  | [] => none
  | (k, r) :: t =>
    let rest := bestEntry h t
    if hopOf k.1 ≠ h then rest
    else match rest with
      | none => some (k, r)
      | some (k', r') =>
        if classOf r'.code < classOf r.code ∨ (classOf r'.code = classOf r.code ∧ r'.first < r.first) then some (k', r')
        else some (k, r)

/-- Move outbox entries into the first hop's buffers while it accepts them (R516, R517). -/
def State.offer (s : State) (h : Nat) : Nat → State
  | 0 => s
  | n + 1 =>
    match bestEntry h s.ev.outbox with
    | none => s
    | some (k, r) =>
      if accepts (classOf r.code) (s.hopBuf h).length then
        let s := { s with ev := { s.ev with outbox := tdel s.ev.outbox k } }
        (s.setHopBuf h (s.hopBuf h ++ [r])).offer h n
      else s

/-- The postmark a source stamps its records with: its region's copy, or the master. -/
def State.stampTime (s : State) (src : FrameId) : W64 := if hopOf src < 8 then s.copyOf (hopOf src) else s.pm.master

/-- An occurrence merged into an outbox entry that holds a record (R516). -/
def mergeRec (r : EvRec) (now : W64) (acc : BitVec 16) (payload : List Byte) : EvRec :=
  { r with last := now, count := r.count + 1, accession := acc, merged := r.merged || r.payload != payload }

/-- Raise an event (R516 to R520): `acc` is the accession its status flag took, 0 when the code has none. -/
def State.event (s : State) (src : FrameId) (code ctx : Nat) (acc : BitVec 16) (payload : List Byte) : State :=
  let h := hopOf src
  let now := s.stampTime src
  let pay := (payload ++ List.replicate 24 0).take 24
  let fresh : EvRec := { code := code, ctx := ctx, src := src, source := s.bar0 src, first := now, last := now, count := 1, accession := acc, payload := pay }
  if classOf code = 2 then
    if accepts 2 (s.hopBuf h).length then
      let gap := tget s.ev.returned src 0
      let s := { s with ev := { s.ev with returned := tset s.ev.returned src 0 } }
      s.setHopBuf h (s.hopBuf h ++ [{ fresh with gapCnt := gap }])
    else
      let s := { s with ev := { s.ev with returned := tset s.ev.returned src (tget s.ev.returned src 0 + 1) } }
      (s.bump (evtFrame h) 0x38 1).raise (evtFrame h) 0 3
  else
    let old := (s.ev.outbox.find? (fun e => e.1 == (src, code))).map (·.2)
    let entry := match old with
      | none => fresh
      | some r => mergeRec r now acc pay
    let s := { s with ev := { s.ev with outbox := tset s.ev.outbox (src, code) entry } }
    let s := if old.isSome && classOf code == 1 then s.raise (evtFrame h) 0 2 else s
    let s := s.offer h (s.ev.outbox.length)
    if classOf code = 0 && (s.ev.outbox.any (fun e => e.1 == (src, code))) then s.raise (evtFrame h) 0 1 else s

/-- Set a status flag and raise the event it belongs to, with the accession the flag took. -/
def State.flagEvent (s : State) (f : FrameId) (off bit : Nat) (code ctx : Nat) (payload : List Byte) : State :=
  let s := s.raise f off bit
  s.event f code ctx (s.frame f).accession payload

/-- Little-endian payload pieces (R515). -/
def u8 (v : Nat) : List Byte := leBytes 1 v
/-- A 16-bit payload field. -/
def u16 (v : Nat) : List Byte := leBytes 2 v
/-- A 32-bit payload field. -/
def u32 (v : Nat) : List Byte := leBytes 4 v
/-- A 64-bit payload field. -/
def u64 (v : Nat) : List Byte := leBytes 8 v

/-- A COMPLETION record, produced while EVT_TRACE_CTRL.DONE of the region is 1 (R515, R535): kind 0 descriptor, 1 layer, 2 stage. -/
def State.completion (s : State) (f : FrameId) (ctx kind number status : Nat) : State :=
  if (s.reg (evtFrame (hopOf f)) 0x10).testBit 1 then s.event f 0x302 ctx 0 (u8 kind ++ u8 0 ++ u16 number ++ u8 status) else s

end Sys2Proof.Machine
end

