-- ==== Sys2Proof/Machine/Mem.lean ====
section
/-! DEFINITION. Device memory as a core reaches it: stack controllers and fences, page-table walks and cached translations, the memory cache and the tray (R26 to R29, R35, R270 to R298). -/
namespace Sys2Proof.Machine

/-- The first physical address that is not backed (R26, R29). -/
def memTop : Nat := 0x14000000000

/-- The region that owns a physical address (R26). -/
def regionOfPa (pa : Nat) : Nat := pa / 0x2800000000

/-- The stack of a physical address within its region (R26). -/
def stackOfPa (pa : Nat) : Nat := pa % 0x2800000000 / 0x1400000000

/-- A core's access engine, cache and control unit. -/
def State.ae (s : State) (k : Nat) : Ae := tget s.aes k {}
/-- Replace a core's access engine. -/
def State.setAe (s : State) (k : Nat) (a : Ae) : State := { s with aes := tset s.aes k a }
/-- Change a core's access engine. -/
def State.modAe (s : State) (k : Nat) (f : Ae → Ae) : State := s.setAe k (f (s.ae k))
/-- A core's memory cache and tray. -/
def State.cache (s : State) (k : Nat) : MemCache := tget s.caches k {}
/-- Replace a core's memory cache. -/
def State.setCache (s : State) (k : Nat) (c : MemCache) : State := { s with caches := tset s.caches k c }
/-- Change a core's memory cache. -/
def State.modCache (s : State) (k : Nat) (f : MemCache → MemCache) : State := s.setCache k (f (s.cache k))
/-- A core's control unit. -/
def State.core (s : State) (k : Nat) : Core := tget s.cores k {}
/-- Replace a core's control unit. -/
def State.setCore (s : State) (k : Nat) (c : Core) : State := { s with cores := tset s.cores k c }
/-- Change a core's control unit. -/
def State.modCore (s : State) (k : Nat) (f : Core → Core) : State := s.setCore k (f (s.core k))

/-- A core's catalogue entry. -/
def State.catCore (s : State) (k : Nat) : CatCore := tget s.cat.cores k {}

/-- The context a core runs (CORE_CTX with VALID, R369, R380). -/
def State.coreCtx (s : State) (k : Nat) : Option Nat :=
  let e := s.catCore k
  if e.state = 1 then some e.ctx
  else if e.state = 2 then
    (match (s.core k).loan with
     | some l => if l.wasFree then none else some e.ctx
     | none => some e.ctx)
  else none

/-- The context number events carry for a core; 0xFF for none (R514). -/
def State.ctxByte (s : State) (k : Nat) : Nat := (s.coreCtx k).getD 0xFF

/-- Whether granule `g` is lent to context `c` (R27, R375). -/
def State.granuleLent (s : State) (g c : Nat) : Bool :=
  let e := tget s.cat.granules g {}
  e.lent && e.ctx == c

/-! ## Stack controllers -/

/-- A range of bytes cut at 128-byte sectors: start and length of each piece. -/
def pieces : Nat → Nat → Nat → List (Nat × Nat)
  | 0, _, _ => []
  | _, _, 0 => []
  | f + 1, pa, n + 1 =>
    let room := 128 - pa % 128
    let len := min room (n + 1)
    (pa, len) :: pieces f (pa + len) (n + 1 - len)

/-- The sector pieces of `n` bytes at `pa`. -/
def sectorPieces (pa n : Nat) : List (Nat × Nat) := pieces (n / 128 + 2) pa n

/-- Bytes read, whether any came from a poisoned sector, the state after, and the address at which a fence stopped the request, until it is reported. -/
structure Rd where
  st : State
  bytes : List Byte
  poison : Bool
  hit : Option Nat := none

/-- Bytes that nothing fixes: what a fenced read returns beside its poison (R35). Log 11. -/
def freeBytes (ctr n : Nat) : List Byte := (List.range n).map (fun i => BitVec.ofNat 8 (Config.freeValue (ctr + i)).toNat)

/-- A FENCE_HIT record (R35, R515). -/
def State.fenceHit (s : State) (src : FrameId) (ctx pa : Nat) : State :=
  s.event src 0x202 ctx 0 (u8 (regionOfPa pa) ++ List.replicate 7 0 ++ u64 pa)

/-- Report the request that a fence stopped, once (R35). -/
def State.fenceReport (s : State) (src : FrameId) (ctx : Nat) : Option Nat → State
  | some pa => s.fenceHit src ctx pa
  | none => s

/-- A read request is over: a fence that stopped it is reported. -/
def Rd.report (r : Rd) (src : FrameId) (ctx : Nat) : Rd := ⟨r.st.fenceReport src ctx r.hit, r.bytes, r.poison, none⟩

/-- Two reads of one request, the second made in the state after the first. -/
def Rd.then (a b : Rd) : Rd := ⟨b.st, a.bytes ++ b.bytes, a.poison || b.poison, a.hit.orElse (fun _ => b.hit)⟩

/-- Whether a frozen stack controller holds the requests to an address: it accepts nothing, and they wait (R61); a fence answers for it (R35). -/
def State.stackHeld (s : State) (pa : Nat) : Bool :=
  s.ownFrozen (.stk (regionOfPa pa) (stackOfPa pa)) && !(s.region (regionOfPa pa)).fenced

/-- What a command does, unless a frozen stack controller does not accept one of its accesses: it then waits with all of it, the state stays, and the command is to come again (R61; log 133). -/
def State.served (s : State) (f : State → State) : State := if (f { s with blocked := false }).blocked then s else f s

/-- An access that a frozen stack controller does not accept is lost: its sender does not wait for it. `was` is the state before it: what already waited still waits. -/
def State.unblocked (s was : State) : State := { s with blocked := was.blocked }

/-- Cycles of a wait whose length no rule fixes: a counter of lost cycles grows by a free value (R531; log 30). -/
def State.waitCycles (s : State) (f : FrameId) (off : Nat) : State :=
  ({ s with freeCtr := s.freeCtr + 1 } : State).modFrame f (fun fr => fr.setCtr off (fr.ctr f off + (Config.freeValue s.freeCtr).toNat))

/-- Read bytes within one sector at the stack controller; a frozen one does not accept the request. -/
def State.readPiece (s : State) (pa n : Nat) : Rd :=
  if (s.region (regionOfPa pa)).fenced then ⟨{ s with freeCtr := s.freeCtr + n }, freeBytes s.freeCtr n, true, some pa⟩
  else if s.stackHeld pa then ⟨{ s with blocked := true }, memBytes s.mem pa n, setHas s.memPoison (pa / 128), none⟩
  else ⟨s, memBytes s.mem pa n, setHas s.memPoison (pa / 128), none⟩

/-- Read the pieces of a range in order. -/
def State.readPieces (s : State) : List (Nat × Nat) → Rd
  | [] => ⟨s, [], false, none⟩
  | (pa, n) :: r => let a := s.readPiece pa n; a.then (a.st.readPieces r)

/-- One read request of physical memory at the stack controllers. -/
def State.readPhys (s : State) (src : FrameId) (ctx pa n : Nat) : Rd := (s.readPieces (sectorPieces pa n)).report src ctx

/-- The poison of a sector after a write of `n` bytes (R280). -/
def poisonAfter (l : List Nat) (sec n : Nat) (poison : Bool) : List Nat :=
  if poison then setAdd l sec else if n = 128 then setDel l sec else l

/-- The bytes a write puts into each sector of a range. -/
def partsOf (poison : Bool) : List (Nat × Nat) → List Byte → List WPart
  | [], _ => []
  | (pa, n) :: r, data => ⟨pa, data.take n, poison⟩ :: partsOf poison r (data.drop n)

/-- Write bytes within one sector at the stack controller; a fence discards them, a frozen controller does not accept them (R35, R61, R280). -/
def State.writePart (s : State) (w : WPart) : State :=
  if (s.region (regionOfPa w.pa)).fenced then s
  else if s.stackHeld w.pa then { s with blocked := true }
  else { s with mem := memPut s.mem w.pa w.data, memPoison := poisonAfter s.memPoison (w.pa / 128) w.data.length w.poison }

/-- Write the parts of a request in order. -/
def State.writeParts (s : State) : List WPart → State
  | [] => s
  | w :: r => (s.writePart w).writeParts r

/-- The address at which a fence stops a write request. -/
def State.fencedPart (s : State) (l : List WPart) : Option Nat := (l.find? (fun w => (s.region (regionOfPa w.pa)).fenced)).map (·.pa)

/-- One write request of physical memory, in parts (R35). -/
def State.writeRequest (s : State) (src : FrameId) (ctx : Nat) (l : List WPart) : State := (s.writeParts l).fenceReport src ctx (s.fencedPart l)

/-- One write request of a physical range. -/
def State.writePhys (s : State) (src : FrameId) (ctx pa : Nat) (data : List Byte) (poison : Bool) : State :=
  s.writeRequest src ctx (partsOf poison (sectorPieces pa data.length) data)

/-! ## Translation (R270 to R275) -/

/-- What an access needs of a page. -/
structure Access where
  user : Bool
  write : Bool
  deriving DecidableEq, Repr

/-- No code of R272: a walk that a frozen stack controller holds, which makes its access wait (R61). -/
def xHeld : Nat := 0
/-- Codes of R272. -/
def xNotValid : Nat := 1
/-- BAD_ENTRY. -/
def xBadEntry : Nat := 2
/-- WRITE. -/
def xWrite : Nat := 3
/-- USER. -/
def xUser : Nat := 4
/-- NONCANON. -/
def xNoncanon : Nat := 5
/-- MISALIGN. -/
def xMisalign : Nat := 6
/-- BUS. -/
def xBus : Nat := 7

/-- The index a level takes from an address (R270). -/
def levelIndex (lvl va : Nat) : Nat := bits va (48 - 9 * lvl) 9

/-- One table read of a walk (R271, R272, R375): the entry, or the code it fails with. -/
def State.walkRead (s : State) (k ctx tbl lvl va : Nat) : State × (Nat ⊕ Nat) :=
  if memTop ≤ tbl then (s, .inl xBadEntry)
  else if !s.granuleLent (tbl / 2 ^ 30) ctx then (s, .inl xNotValid)
  else if s.stackHeld tbl then (s, .inl xHeld)
  else
    let r := s.readPhys (.cu k) ctx (tbl + 8 * levelIndex lvl va) 8
    if r.poison then (r.st, .inl xBus)
    else
      let e := leNat r.bytes
      if e % 2 = 0 then (r.st, .inl xNotValid)
      else if bits e 6 6 ≠ 0 ∨ bits e 48 16 ≠ 0 then (r.st, .inl xBadEntry)
      else (r.st, .inr e)

/-- A page found by a walk or in the translation cache: its frame, size in address bits, and leaf bits. -/
structure Page where
  frame : Nat
  size : Nat
  w : Bool
  u : Bool
  x : Bool
  na : Bool
  deriving DecidableEq, Repr

/-- Check a leaf entry (R271, R375). -/
def State.leaf (s : State) (ctx e size : Nat) : Nat ⊕ Page :=
  let f := bits e 12 36 * 4096
  if f % 2 ^ size ≠ 0 ∨ memTop ≤ f then .inl xBadEntry
  else if !s.granuleLent (f / 2 ^ 30) ctx then .inl xNotValid
  else .inr ⟨f, size, e.testBit 2, e.testBit 3, e.testBit 4, e.testBit 5⟩

/-- Walk the tables of a core's context (R270 to R272). -/
def State.walk (s : State) (k ctx va : Nat) : State × (Nat ⊕ Page) :=
  let root := s.reg (.ae k) 0 + 2 ^ 32 * s.reg (.ae k) 4
  let (s, e1) := s.walkRead k ctx root 1 va
  match e1 with
  | .inl c => (s, .inl c)
  | .inr e1 =>
    if e1.testBit 1 ∨ memTop ≤ bits e1 12 36 * 4096 then (s, .inl xBadEntry)
    else
      let (s, e2) := s.walkRead k ctx (bits e1 12 36 * 4096) 2 va
      match e2 with
      | .inl c => (s, .inl c)
      | .inr e2 =>
        if e2.testBit 1 then (s, s.leaf ctx e2 30)
        else if memTop ≤ bits e2 12 36 * 4096 then (s, .inl xBadEntry)
        else
          let (s, e3) := s.walkRead k ctx (bits e2 12 36 * 4096) 3 va
          match e3 with
          | .inl c => (s, .inl c)
          | .inr e3 => if e3.testBit 1 then (s, s.leaf ctx e3 21) else (s, .inl xBadEntry)

/-- A cached translation as a page. -/
def TlbEntry.page (e : TlbEntry) (size : Nat) : Page := ⟨e.frame, size, e.w, e.u, e.x, e.na⟩

/-- Look an address up in the translation cache (R273). -/
def Ae.cached (a : Ae) (va : Nat) : Option Page :=
  match a.tlbM.find? (fun e => e.2.vpn == va / 2 ^ 21) with
  | some e => some (e.2.page 21)
  | none => (a.tlbG.find? (fun e => e.2.vpn == va / 2 ^ 30)).map (fun e => e.2.page 30)

/-- Cache a translation, round-robin (R273). -/
def Ae.remember (a : Ae) (va : Nat) (p : Page) : Ae :=
  let e : TlbEntry := ⟨va / 2 ^ p.size, p.frame, p.w, p.u, p.x, p.na⟩
  if p.size = 21 then { a with tlbM := tset a.tlbM a.tlbMNext e, tlbMNext := (a.tlbMNext + 1) % 64 }
  else { a with tlbG := tset a.tlbG a.tlbGNext e, tlbGNext := (a.tlbGNext + 1) % 32 }

/-- Leaf permissions, USER before WRITE (R272). -/
def Page.allows (p : Page) (acc : Access) : Option Nat :=
  if acc.user && !p.u then some xUser else if acc.write && !p.w then some xWrite else none

/-- A translated address. -/
structure Xl where
  pa : Nat
  na : Bool
  deriving DecidableEq, Repr

/-- Translate one address for a core; failed translations are not cached, and a walk costs cycles that AE_XLATE_MISS counts (R272, R273). A core without a context has nothing lent, so every walk fails. -/
def State.xlate (s : State) (k : Nat) (acc : Access) (va : Nat) : State × (Nat ⊕ Xl) :=
  if 2 ^ 48 ≤ va then (s, .inl xNoncanon)
  else
    match (s.ae k).cached va with
    | some p =>
      (match p.allows acc with
       | some c => (s, .inl c)
       | none => (s, .inr ⟨p.frame + va % 2 ^ p.size, p.na⟩))
    | none =>
      match s.coreCtx k with
      | none => (s, .inl xNotValid)
      | some ctx =>
        let (s, r) := (s.waitCycles (.ae k) 0x410).walk k ctx va
        match r with
        | .inl c => (s, .inl c)
        | .inr p =>
          match p.allows acc with
          | some c => (s, .inl c)
          | none => (s.modAe k (fun a => a.remember va p), .inr ⟨p.frame + va % 2 ^ p.size, p.na⟩)

/-- A range cut at 2 MiB pages. -/
def pageCuts : Nat → Nat → Nat → List (Nat × Nat)
  | 0, _, _ => []
  | _, _, 0 => []
  | f + 1, va, n + 1 =>
    let len := min (2 ^ 21 - va % 2 ^ 21) (n + 1)
    (va, len) :: pageCuts f (va + len) (n + 1 - len)

/-- Translate the pieces of a range in ascending order; the first failure gives its code and the lowest faulting address (R158, R357). -/
def State.xlateCuts (s : State) (k : Nat) (acc : Access) : List (Nat × Nat) → State × ((Nat × Nat) ⊕ List Seg)
  | [] => (s, .inr [])
  | (va, n) :: r =>
    let (s, x) := s.xlate k acc va
    match x with
    | .inl c => (s, .inl (c, va))
    | .inr x =>
      let (s, y) := s.xlateCuts k acc r
      match y with
      | .inl f => (s, .inl f)
      | .inr l => (s, .inr (⟨va, x.pa, n, x.na⟩ :: l))

/-- Translate a range of `n` bytes. -/
def State.xlateRange (s : State) (k : Nat) (acc : Access) (va n : Nat) : State × ((Nat × Nat) ⊕ List Seg) :=
  s.xlateCuts k acc (pageCuts (n / 2 ^ 21 + 2) va n)

/-- Whether a frozen stack controller holds a walk that a range needs. -/
def State.walkHeld (s : State) (k : Nat) (acc : Access) (va n : Nat) : Bool :=
  (pageCuts (n / 2 ^ 21 + 2) va n).any (fun p => match (s.xlate k acc p.1).2 with
    | .inl c => c == xHeld
    | .inr _ => false)

/-- Discard every cached translation of a core (R274). -/
def Ae.flushTlb (a : Ae) : Ae := { a with tlbM := [], tlbMNext := 0, tlbG := [], tlbGNext := 0 }

/-! ## Requests, slots and banks (R25, R275 to R277, R299, R551) -/

/-- A physical range cut at 512-byte lines. -/
def linePieces : Nat → Nat → Nat → List (Nat × Nat)
  | 0, _, _ => []
  | _, _, 0 => []
  | f + 1, pa, m + 1 =>
    let len := min (512 - pa % 512) (m + 1)
    (pa, len) :: linePieces f (pa + len) (m + 1 - len)

/-- The line requests of a physical range (R275). -/
def lineCuts (pa n : Nat) : List (Nat × Nat) := linePieces (n / 512 + 2) pa n

/-- Stack, pseudo-channel and bank of a physical address (R25). -/
def bankOf (pa : Nat) : Nat × Nat × Nat :=
  let l := pa % 0x1400000000 / 512
  (pa / 0x1400000000, bits l 0 6 ^^^ bits l 12 6, bits l 8 4 ^^^ bits l 18 4)

/-- The page of a physical address: its R25 row. -/
def pageOf (pa : Nat) : Nat := pa % 0x1400000000 / 512 / 4096

/-- The sectors a range touches. -/
def sectorsOf (pa n : Nat) : List Nat := (sectorPieces pa n).map (fun p => p.1 / 128)
/-- Whether two lists of sectors meet. -/
def shares (a b : List Nat) : Bool := a.any (fun n => b.contains n)

/-- Whether a request writes. -/
def Req.isWrite (r : Req) : Bool := !r.parts.isEmpty
/-- The sectors a request reads or writes. -/
def Req.sectors (r : Req) : List Nat := if r.isWrite then r.parts.map (fun w => w.pa / 128) else sectorsOf r.pa r.len
/-- The line of a request, by its address. -/
def Req.place (r : Req) : Nat := match r.parts with | w :: _ => w.pa | [] => r.pa
/-- A write-back of evicted sectors. -/
def Req.evict (r : Req) : Bool := r.isWrite && r.desc.isNone
/-- The sectors of a write on its way. -/
def PendWrite.sectors (w : PendWrite) : List Nat := w.parts.map (fun p => p.pa / 128)
/-- Its address. -/
def PendWrite.place (w : PendWrite) : Nat := match w.parts with | p :: _ => p.pa | [] => 0

/-- The slots in use, by the address of each request: reads, writes not yet accepted, prefetches (R275). -/
def State.slotPlaces (s : State) (k : Nat) : List Nat :=
  (s.ae k).slots.map Req.place ++ (s.ae k).writes.map PendWrite.place ++ (s.cache k).prefetch.map (fun f => 128 * f.sector)

/-- Whether all 64 slots are busy. -/
def State.slotsFull (s : State) (k : Nat) : Bool := decide (64 ≤ (s.slotPlaces k).length)

/-- Slots a bank holds (R277). -/
def State.bankSlots (s : State) (k : Nat) (b : Nat × Nat × Nat) : Nat := ((s.slotPlaces k).filter (fun a => bankOf a == b)).length

/-- Whether a bank is below its cap (R277, R305). -/
def State.belowCap (s : State) (k a : Nat) : Bool := decide (64 ≤ s.reg (.ae k) 8) || decide (s.bankSlots k (bankOf a) < s.reg (.ae k) 8)

/-- Whether requests to these addresses can hold slots all at once. -/
def State.slotsFor (s : State) (k : Nat) (l : List Nat) : Bool :=
  decide ((s.slotPlaces k).length + l.length ≤ 64) &&
  (decide (64 ≤ s.reg (.ae k) 8) || l.all (fun a => decide (s.bankSlots k (bankOf a) + (l.filter (fun b => bankOf b == bankOf a)).length ≤ s.reg (.ae k) 8)))

/-! ## Writes on their way (R275, R299, R551) -/

/-- The stack controller accepts one pending write of a core and publishes it. A TSAVE's write is checked against the catalogue once more: what lies in a granule no longer lent to its context is not written, and IMAGE_LOST is set (R193). -/
def State.acceptWrite (s : State) (k : Nat) (w : PendWrite) : State :=
  match w.tile with
  | none => s.writeRequest (.cu k) (s.ctxByte k) w.parts
  | some (a, ctx) =>
    let kept := w.parts.filter (fun p => s.granuleLent (p.pa / 2 ^ 30) ctx)
    let s := if kept.length = w.parts.length then s else s.flagNow k a 5
    s.writeRequest (.cu k) (s.ctxByte k) kept

/-- Accept a list of writes in order. -/
def State.acceptAll (s : State) (k : Nat) : List PendWrite → State
  | [] => s
  | w :: r => (s.acceptWrite k w).acceptAll k r

/-- Whether a write-back of one of these lines has not been accepted, issued or not (R289). -/
def State.lineBack (s : State) (k : Nat) (secs : List Nat) : Bool :=
  let a := s.ae k
  let lines := secs.map (· / 4)
  a.writes.any (fun w => w.evict && shares (w.sectors.map (· / 4)) lines) || (a.frame ++ a.again).any (fun r => r.evict && shares (r.sectors.map (· / 4)) lines)

/-- Whether a read of these sectors in memory must wait: behind the core's earlier writes to them, behind a write-back of their lines, or at a frozen stack controller (R61, R289, R299). -/
def State.behind (s : State) (k : Nat) (secs : List Nat) : Bool :=
  (s.ae k).writes.any (fun w => shares w.sectors secs) || s.lineBack k secs || secs.any (fun n => s.stackHeld (128 * n))

/-! ## Memory cache and tray (R286 to R297) -/

/-- Set, tag and sector of a sector number (R286). -/
def setOf (sec : Nat) : Nat := sec / 4 % 256
/-- The tag of a sector number. -/
def tagOf (sec : Nat) : Nat := sec / 1024
/-- The sector within its line. -/
def subOf (sec : Nat) : Nat := sec % 4

/-- The way of a set that holds a line with this tag, searched from way 15 down to `n`'s zero. -/
def MemCache.wayOf (c : MemCache) (set tag : Nat) : Nat → Option Nat
  | 0 => none
  | n + 1 =>
    match (c.lines.find? (fun e => e.1 == (set, n))).map (·.2) with
    | some l => if l.tag = tag then some n else c.wayOf set tag n
    | none => c.wayOf set tag n

/-- A sector as the cache holds it. -/
def MemCache.sector (c : MemCache) (sec : Nat) : Option (Nat × Sector) :=
  match c.wayOf (setOf sec) (tagOf sec) 16 with
  | none => none
  | some w =>
    let l := tget c.lines (setOf sec, w) ⟨0, []⟩
    let x := l.sectors.getD (subOf sec) {}
    if x.valid then some (w, x) else none

/-- Replace a sector of a line in a way. -/
def MemCache.putSector (c : MemCache) (w sec : Nat) (x : Sector) : MemCache :=
  let key := (setOf sec, w)
  let l := tget c.lines key ⟨tagOf sec, List.replicate 4 {}⟩
  { c with lines := tset c.lines key { l with sectors := listSet l.sectors (subOf sec) x } }

/-- The line's physical address. -/
def lineBase (set tag : Nat) : Nat := tag * 2 ^ 17 + set * 512

/-- The dirty sectors of a line. -/
def dirtyParts (set : Nat) (l : Line) : List WPart :=
  (List.range 4).filterMap (fun i =>
    let x := l.sectors.getD i {}
    if x.valid && x.dirty then some ⟨lineBase set l.tag + 128 * i, x.data, x.poison⟩ else none)

/-- The dirty sectors of a line as one write-back request (R275). -/
def writeBacks (set : Nat) (l : Line) : List Req :=
  match dirtyParts set l with
  | [] => []
  | p => [{ desc := none, parts := p }]

/-- Those of some sectors that neither the cache nor the tray can supply; `on` says whether these are looked up (R287, R290). -/
def State.fromMemory (s : State) (k : Nat) (on : Bool) (secs : List Nat) : List Nat :=
  let c := s.cache k
  secs.filter (fun n => !on || ((c.sector n).isNone && !c.tray.any (fun t => t.sector == n)))

/-- Requests enter the sorting frame, in order, as far as it has room; the others wait for it (R276). -/
def State.refill (s : State) (k : Nat) : State :=
  let now := s.cyclesOf (regionOf k)
  s.modAe k (fun a =>
    let room := 32 - a.frame.length
    { a with frame := a.frame ++ (a.again.take room).map (fun r => { r with born := now }), again := a.again.drop room })

/-- Requests come to the sorting frame. -/
def State.toFrame (s : State) (k : Nat) (l : List Req) : State :=
  if l.isEmpty then s else (s.modAe k (fun a => { a with again := a.again ++ l })).refill k

/-- Put a sector into the cache, allocating its line round-robin and writing dirty sectors of the victim back first (R286, R289). -/
def State.install (s : State) (k sec : Nat) (data : List Byte) (poison : Bool) : State :=
  let c := s.cache k
  let x : Sector := ⟨true, false, poison, data⟩
  match c.wayOf (setOf sec) (tagOf sec) 16 with
  | some w => s.setCache k (c.putSector w sec x)
  | none =>
    let set := setOf sec
    let w := tget c.ptr set 0
    let wb := match (c.lines.find? (fun e => e.1 == (set, w))).map (·.2) with
      | some l => writeBacks set l
      | none => []
    let c := { c with ptr := tset c.ptr set ((w + 1) % 16)
                      lines := tset c.lines (set, w) ⟨tagOf sec, List.replicate 4 {}⟩ }
    (s.setCache k (c.putSector w sec x)).toFrame k wb

/-- MCACHE_CTRL.ENABLE of a core. -/
def State.cacheOn (s : State) (k : Nat) : Bool := (s.reg (.mc k) 0).testBit 0

/-- Read bytes within one sector for a core: cache, tray, memory (R287, R290, R295); `on` says whether the cache was enabled at the lookup, `alloc` whether a miss fills the sector. -/
def State.readSector (s : State) (k : Nat) (on alloc na : Bool) (pa n : Nat) : Rd :=
  let sec := pa / 128
  let off := pa % 128
  if !on then s.readPieces [(pa, n)]
  else
    match (s.cache k).sector sec with
    | some (_, x) => ⟨s.bump (.mc k) 0x100 1, (x.data.drop off).take n, x.poison, none⟩
    | none =>
      match (s.cache k).tray.find? (fun t => t.sector == sec) with
      | some t =>
        let s := s.bump (.ae k) 0x418 1
        let s := s.modCache k (fun c => { c with tray := c.tray.filter (fun u => u.sector != sec) })
        let s := if na then s else s.install k sec t.data t.poison
        ⟨s, (t.data.drop off).take n, t.poison, none⟩
      | none =>
        let s := s.bump (.mc k) 0x108 1
        if alloc && !na then
          let r := s.readPieces [(sec * 128, 128)]
          ⟨r.st.install k sec r.bytes r.poison, (r.bytes.drop off).take n, r.poison, r.hit⟩
        else s.readPieces [(pa, n)]

/-- Read the sectors of one request; `fill` says which of them a miss installs. -/
def State.readSectors (s : State) (k : Nat) (on : Bool) (fill : Nat → Bool) (na : Bool) : List (Nat × Nat) → Rd
  | [] => ⟨s, [], false, none⟩
  | (pa, n) :: r => let a := s.readSector k on (fill (pa / 128)) na pa n; a.then (a.st.readSectors k on fill na r)

/-- One read request of a core. -/
def State.readLine (s : State) (k : Nat) (on : Bool) (fill : Nat → Bool) (na : Bool) (pa n : Nat) : Rd :=
  (s.readSectors k on fill na (sectorPieces pa n)).report (.cu k) (s.ctxByte k)

/-- The frame issues a request to an address: its page is now the bank's open page (R276). -/
def State.opens (s : State) (k a : Nat) : State := s.modAe k (fun x => { x with openPage := tset x.openPage (bankOf a) (pageOf a) })

/-- The frame issues a request of one of the core's own accesses, in the next region cycle it may issue in (R276). -/
def State.ownIssue (s : State) (k a : Nat) : State :=
  let now := s.cyclesOf (regionOf k)
  (s.opens k a).modAe k (fun x => { x with nextIssue := max now x.nextIssue + 1 })

/-- Read requests of a core's own access, in order. -/
def State.readLines (s : State) (k : Nat) (alloc na : Bool) : List (Nat × Nat) → Rd
  | [] => ⟨s, [], false, none⟩
  | (pa, n) :: r => let a := (s.ownIssue k pa).readLine k (s.cacheOn k) (fun _ => alloc) na pa n; a.then (a.st.readLines k alloc na r)

/-- Read translated segments for a core's own access: each line a request that passes the frame, holds a slot and returns within this step (log 6). -/
def State.readSegs (s : State) (k : Nat) (alloc : Bool) : List Seg → Rd
  | [] => ⟨s, [], false, none⟩
  | g :: r => let a := s.readLines k alloc g.na (lineCuts g.pa g.len); a.then (a.st.readSegs k alloc r)

/-- Drop tray entries of a core for which `p` holds; `count` says whether R296 counts them, `mark` whether prefetches in flight for such sectors are marked discard on arrival (R296, R298). -/
def State.dropTray (s : State) (k : Nat) (count mark : Bool) (p : Nat → Bool) : State :=
  let c := s.cache k
  let gone := (c.tray.filter (fun t => p t.sector)).length
  let c := { c with
    tray := c.tray.filter (fun t => !p t.sector)
    prefetch := if mark then c.prefetch.map (fun f => if p f.sector then { f with discard := true } else f) else c.prefetch }
  (s.setCache k c).bump (.ae k) 0x420 (if count then gone else 0)

/-- An acquire empties the tray and marks every prefetch in flight (R296). -/
def State.emptyTray (s : State) (k : Nat) : State := s.dropTray k true true (fun _ => true)

/-- Replace bytes of a sector from `off`. -/
def patch (old : List Byte) (off : Nat) (data : List Byte) : List Byte :=
  old.take off ++ data ++ old.drop (off + data.length)

/-- The parts of a write meet the cache: a valid sector takes its bytes and is dirty, a tray entry is dropped; the parts that miss are given back (R288, R296). -/
def State.hitParts (s : State) (k : Nat) : List WPart → State × List WPart
  | [] => (s, [])
  | w :: r =>
    let sec := w.pa / 128
    let s := s.dropTray k true true (fun n => n == sec)
    match if s.cacheOn k then (s.cache k).sector sec else none with
    | some (way, x) =>
      let p := w.poison || (x.poison && w.data.length != 128)
      (s.modCache k (fun c => c.putSector way sec ⟨true, true, p, patch x.data (w.pa % 128) w.data⟩)).hitParts k r
    | none => let (s, l) := s.hitParts k r; (s, w :: l)

/-- One write request of a core: the sectors the cache holds are updated, the others go on their way to memory in one slot (R275, R288). -/
def State.writeLine (s : State) (k : Nat) (desc : Option Nat) (tile : Option (Nat × Nat)) (l : List WPart) : State :=
  let (s, miss) := s.hitParts k l
  if miss.isEmpty then s else s.modAe k (fun a => { a with writes := a.writes ++ [{ parts := miss, desc := desc, tile := tile }] })

/-- Parts grouped by line: one group a request. -/
def lineGroups : List WPart → List (List WPart)
  | [] => []
  | w :: r =>
    match lineGroups r with
    | (v :: g) :: t => if v.pa / 512 = w.pa / 512 then (w :: v :: g) :: t else [w] :: (v :: g) :: t
    | l => [w] :: l

/-- The address of a group's request. -/
def groupPlace (g : List WPart) : Nat := match g with | w :: _ => w.pa | [] => 0

/-- Write requests of a core's own access, in order. -/
def State.writeLines (s : State) (k : Nat) (tile : Option (Nat × Nat)) : List (List WPart) → State
  | [] => s
  | g :: r => ((s.ownIssue k (groupPlace g)).writeLine k none tile g).writeLines k tile r

/-- The parts of a write to translated segments. -/
def segParts (poison : Bool) : List Seg → List Byte → List WPart
  | [], _ => []
  | g :: r, data => partsOf poison (sectorPieces g.pa g.len) (data.take g.len) ++ segParts poison r (data.drop g.len)

/-- Write translated segments for a core's own access. -/
def State.writeSegs (s : State) (k : Nat) (poison : Bool) (segs : List Seg) (data : List Byte) : State :=
  s.writeLines k none (lineGroups (segParts poison segs data))

/-! ## When the sorting frame lets a request go (R276, R277, R288) -/

/-- Whether older requests or fills hold a write back: an older request to a sector of it that waits in the frame, a write-back among them, or a read of it that has not returned (R276, R288). -/
def State.writeHeld (s : State) (k : Nat) (older : List Req) (secs : List Nat) : Bool :=
  (older ++ (s.ae k).slots).any (fun r => shares r.sectors secs)

/-- Whether an older write that waits in the frame holds a read back. -/
def readHeld (older : List Req) (secs : List Nat) : Bool := older.any (fun r => r.isWrite && shares r.sectors secs)

/-- Whether the frame may issue its request `r`, which stands behind `older`: a free slot, its bank below the cap, no older request it may not pass, and for a read of memory no write-back of its line still to be accepted (R276, R289). DEDUCED (log 132): a write-back waits for older write-backs of its sectors only; an access of the descriptors that waits in the frame has not been performed, so the older data of the cache reaches memory before it. -/
def State.eligible (s : State) (k : Nat) (older : List Req) (r : Req) : Bool :=
  s.belowCap k r.place &&
  (if r.evict then !older.any (fun q => q.evict && shares q.sectors r.sectors)
   else if r.isWrite then !s.writeHeld k older r.sectors
   else !readHeld older r.sectors && !s.lineBack k (s.fromMemory k (s.cacheOn k) r.sectors))

/-- Whether a request in the frame has waited 256 cycles and may issue: it goes before any of the core's own accesses (R276 rule 1). -/
def State.agedFirst (s : State) (k : Nat) : Bool :=
  let l := (s.ae k).frame
  (List.range l.length).any (fun i => match l[i]? with
    | some r => decide (r.born + 256 ≤ s.cyclesOf (regionOf k)) && !s.slotsFull k && s.eligible k (l.take i) r
    | none => false)

/-- Whether lookups in the memory cache go on: not in a frozen cache, nor while a full maintenance operation runs (R61, R293). -/
def State.lookups (s : State) (k : Nat) : Bool := !s.frozen (.mc k) && !(s.cache k).maint.any (·.running)

/-- Whether the frame takes requests of a core's own accesses now: it has room, nothing older than 256 cycles goes first, and it has issued nothing yet in this region cycle (R276). -/
def State.frameOpen (s : State) (k : Nat) : Bool :=
  let a := s.ae k
  !s.frozen (.ae k) && s.lookups k && decide (a.frame.length < 32) && !s.agedFirst k && decide (a.nextIssue ≤ s.cyclesOf (regionOf k))

/-- Whether nothing but a slot keeps back a read request of a core's own access (R276, R289, R299). -/
def State.readFree (s : State) (k : Nat) (p : Nat × Nat) : Bool :=
  let secs := sectorsOf p.1 p.2
  !readHeld ((s.ae k).frame ++ (s.ae k).again) secs && !s.behind k (s.fromMemory k (s.cacheOn k) secs)

/-- The line requests of translated segments. -/
def segLines (segs : List Seg) : List (Nat × Nat) := segs.flatMap (fun g => lineCuts g.pa g.len)

/-- Whether the frame lets the read requests of a core's own access go now, one after the other (R255, R276 rule 2, R277). -/
def State.readsGo (s : State) (k : Nat) (segs : List Seg) : Bool :=
  s.frameOpen k && (segLines segs).all (fun p => s.slotsFor k [p.1] && s.readFree k p)

/-- Whether nothing but slots keeps back the write requests of a core's own access. -/
def State.writesFree (s : State) (k : Nat) (l : List (List WPart)) : Bool :=
  l.all (fun g => !s.writeHeld k ((s.ae k).frame ++ (s.ae k).again) (g.map (fun w => w.pa / 128)))

/-- Whether it lets the write requests of a core's own access go now; they hold their slots together. -/
def State.writesGo (s : State) (k : Nat) (l : List (List WPart)) : Bool :=
  s.frameOpen k && s.slotsFor k (l.map groupPlace) && s.writesFree k l

/-- A region cycle in which requests of the core's own accesses to these addresses find all 64 slots busy and nothing else against them: SLOT_FULL counts it, once (R277). -/
def State.slotWait (s : State) (k : Nat) (free : Bool) (places : List Nat) : State :=
  if s.frameOpen k && free && !places.isEmpty && s.slotsFull k && places.all (s.belowCap k) then
    (s.bump (.ae k) 0x400 1).modAe k (fun a => { a with nextIssue := s.cyclesOf (regionOf k) + 1 })
  else s

/-- The reads of a core's own access wait. -/
def State.readStall (s : State) (k : Nat) (segs : List Seg) : State :=
  s.slotWait k ((segLines segs).all (s.readFree k)) ((segLines segs).map (·.1))

/-- Its writes wait. -/
def State.writeStall (s : State) (k : Nat) (l : List (List WPart)) : State := s.slotWait k (s.writesFree k l) (l.map groupPlace)

/-- Whether a prefetch of a sector is dropped (R290, R294): the cache disabled, an NA page, the sector valid in the cache, held or in flight in the tray. -/
def State.prefetchDropped (s : State) (k sec : Nat) (na : Bool) : Bool :=
  let c := s.cache k
  !s.cacheOn k || na || (c.sector sec).isSome || c.tray.any (fun t => t.sector == sec) || c.prefetch.any (fun f => f.sector == sec)

/-- A prefetch of one sector begins, a read request of its own, or is dropped. -/
def State.startPrefetch (s : State) (k : Nat) (desc : Option Nat) (sec : Nat) (na : Bool) : State :=
  if s.prefetchDropped k sec na then s
  else (s.ownIssue k (128 * sec)).modCache k (fun c => { c with prefetch := c.prefetch ++ [⟨sec, desc, false⟩] })

end Sys2Proof.Machine
end

