-- ==== Sys2Proof/Machine/CoreOps.lean ====
section
/-! DEFINITION. Named operations on one core: its status word, core data memory with dirty bits, pending causes and their masks, arithmetic flags, activity. -/
namespace Sys2Proof.Machine

/-- CORE_STAT of a core (R380). -/
def State.stat (s : State) (k : Nat) : Nat := s.reg (.cu k) 0x500
/-- Store CORE_STAT. -/
def State.setStat (s : State) (k v : Nat) : State := s.setReg (.cu k) 0x500 v
/-- STAT.PRIV: supervisor level. -/
def State.priv (s : State) (k : Nat) : Bool := (s.stat k).testBit 0
/-- STAT.IHOLD. -/
def State.ihold (s : State) (k : Nat) : Bool := (s.stat k).testBit 1
/-- STAT.DF. -/
def State.inDf (s : State) (k : Nat) : Bool := (s.stat k).testBit 2
/-- STAT.PRECISE_ARITH. -/
def State.preciseArith (s : State) (k : Nat) : Bool := (s.stat k).testBit 3
/-- STAT.STOPPED. -/
def State.stopped (s : State) (k : Nat) : Bool := (s.stat k).testBit 4
/-- CORE_VLEN (R154). -/
def State.vlen (s : State) (k : Nat) : Nat := s.reg (.cu k) 0x230
/-- CORE_PRED (R134). -/
def State.preds (s : State) (k : Nat) : Nat := s.reg (.cu k) 0x220
/-- Read a predicate; P0 reads 1. -/
def State.predBit (s : State) (k p : Nat) : Bool := p == 0 || (s.preds k).testBit p

/-- Write a predicate; P0 ignores writes (R134). -/
def State.setPred (s : State) (k p : Nat) (b : Bool) : State :=
  if p = 0 then s
  else
    let v := s.preds k
    s.setReg (.cu k) 0x220 (if b then v ||| 2 ^ p else if v.testBit p then v - 2 ^ p else v)

/-- Something a core of a context did (R333): its region's detector sees the context active now. -/
def State.act (s : State) (k : Nat) : State :=
  match s.coreCtx k with
  | none => s
  | some c => { s with active := tset s.active (regionOf k, c) (s.copyOf (regionOf k)) }

/-! ## Core data memory (R125 to R128) -/

/-- Size of core data memory. -/
def dmemSize : Nat := 0x80000

/-- Mark the pages of a range dirty (R128). -/
def State.dirty (s : State) (k : Nat) : List Nat → State
  | [] => s
  | p :: r =>
    let off := 0x440 + 4 * (p / 32)
    (s.setReg (.cu k) off (s.reg (.cu k) off ||| 2 ^ (p % 32))).dirty k r

/-- The 4 KiB pages of a range. -/
def pagesOf (a n : Nat) : List Nat := (List.range ((a + n - 1) / 4096 - a / 4096 + 1)).map (· + a / 4096)

/-- Write bytes of core data memory and mark their pages dirty. -/
def State.dmemWrite (s : State) (k a : Nat) (data : List Byte) : State :=
  if data.isEmpty then s
  else (s.modCore k (fun c => { c with dmem := memPut c.dmem a data })).dirty k (pagesOf a data.length)

/-- Bytes of core data memory. -/
def State.dmemBytes (s : State) (k a n : Nat) : List Byte := memBytes (s.core k).dmem a n

/-- The value of `n` bytes of core data memory. -/
def State.dmemNat (s : State) (k a n : Nat) : Nat := leNat (s.dmemBytes k a n)

/-- The 256-byte blocks of a range: each has one poison bit (R169). -/
def blocksOf (a n : Nat) : List Nat := (List.range ((a + n - 1) / 256 - a / 256 + 1)).map (· + a / 256)

/-- Whether a range touches a poisoned block of core data memory. -/
def State.dmemPoison (s : State) (k a n : Nat) : Bool := (blocksOf a n).any (fun b => setHas (s.core k).dpoison b)

/-- Set or clear the poison of the blocks a write covers: poison enters every block it touches, and leaves those it covers wholly (as R280 for sectors; log 19). -/
def blockPoison (l : List Nat) (a n : Nat) (p : Bool) : List Nat :=
  (blocksOf a n).foldl (fun l b => if p then setAdd l b else if a ≤ b * 256 ∧ (b + 1) * 256 ≤ a + n then setDel l b else l) l

/-- Write core data memory with poison. -/
def State.dmemWriteP (s : State) (k a : Nat) (data : List Byte) (p : Bool) : State :=
  (s.dmemWrite k a data).modCore k (fun c => { c with dpoison := blockPoison c.dpoison a data.length p })

/-! ## Causes (R349 to R353, R381) -/

/-- The cause mask, codes 0 to 34 (R381). -/
def State.cmask (s : State) (k : Nat) : Nat := s.reg (.cu k) 0x508 + 2 ^ 32 * s.reg (.cu k) 0x50C

/-- Whether a cause is masked. -/
def State.masked (s : State) (k code : Nat) : Bool := (s.cmask k).testBit code

/-- Insert a cause in code order; one already pending keeps its first record (R350). -/
def addCause (c : Cause) : List Cause → List Cause
  | [] => [c]
  | d :: r => if c.code = d.code then d :: r else if c.code < d.code then c :: d :: r else d :: addCause c r

/-- A cause becomes pending. -/
def State.pendCause (s : State) (k : Nat) (c : Cause) : State := s.modCore k (fun x => { x with pend := addCause c x.pend })

/-- Raise arithmetic flags for one instruction: each sets its flag with an accession of its own, and when unmasked its cause (R96, R353, R354). `all` is every flag the instruction has set, `precise` whether it issued in precise mode and has completed. -/
def State.raiseArithFrom (s : State) (k : Nat) (precise : Bool) (pc : W64) (fl all : Nat) : Nat → State
  | 0 => s
  | n + 1 =>
    let s := s.raiseArithFrom k precise pc fl all n
    if fl.testBit n then
      let s := s.raise (.cu k) 0x200 n
      if s.masked k (17 + n) then s
      else s.pendCause k { code := 17 + n, precise := precise, addr := pc, info := BitVec.ofNat 64 all }
    else s

/-- The arithmetic flags `fl` of a tile instruction set in the present cycle: they are numbered with those of the core's other arrays in that cycle (R55). -/
def State.arithNow (s : State) (k : Nat) (precise : Bool) (pc : W64) (fl all : Nat) : State :=
  s.modCore k (fun c => { c with newArith := c.newArith ++ ((List.range 13).filter fl.testBit).map (fun b => ⟨b, precise, pc, all⟩) })

/-- The arithmetic flags of a cycle of the arrays set: in bit order, one accession for each event; those of one bit in the order of the arrays (R55, R96). -/
def State.arithDue (s : State) (k : Nat) : State :=
  let due := (s.core k).newArith
  let s := s.modCore k (fun c => { c with newArith := [] })
  ((List.range 13).flatMap (fun b => due.filter (fun e => e.bit == b))).foldl (fun t e => t.raiseArithFrom k e.precise e.pc (2 ^ e.bit) e.all 13) s

/-- Raise the arithmetic flags `fl` for the instruction at `pc`, which completes now. -/
def State.raiseArith (s : State) (k : Nat) (pc : W64) (fl : Nat) : State := s.raiseArithFrom k (s.preciseArith k) pc fl fl 13

end Sys2Proof.Machine
end

