-- ==== Sys2Proof/Machine/Flags.lean ====
section
/-! DEFINITION. Conditions and flags: integer comparison codes, comparison of scalars and lanes, the status flag of each masked cause (R138, R139, R162, R349, R383). -/
namespace Sys2Proof.Machine

/-- ICMP's condition codes (R138); codes 10 to 15 are reserved. -/
def icmpHolds (cc : Nat) (a b : W64) : Bool :=
  match cc with
  | 0 => a == b
  | 1 => a != b
  | 2 => a.slt b
  | 3 => a.sle b
  | 4 => b.slt a
  | 5 => b.sle a
  | 6 => a.ult b
  | 7 => a.ule b
  | 8 => b.ult a
  | _ => b.ule a

/-- The format a scalar instruction names (R139). -/
def fmtOf : FloatWidth → Fmt
  | .f32 => fmt32
  | .f64 => fmt64

/-- Bits of a scalar (R112). -/
def widthOf : FloatWidth → Nat
  | .f32 => 32
  | .f64 => 64

/-- Bits of a lane (R162). -/
def laneBits : LaneFormat → Nat
  | .f32 => 32
  | .f64 => 64
  | .k16 => 16

/-- Comparison of two lanes: the outcome and the flags (R139, R162). -/
def laneCmp (f : LaneFormat) (cc x y : Nat) : Bool × Nat :=
  match f with
  | .f32 => fmt32.cmp cc x y
  | .f64 => fmt64.cmp cc x y
  | .k16 => (kCmp cc x y, 0)

/-- The status flag that a masked precise cause sets in the control unit frame: offset and bit (R349, R383). Causes 10, 11 and 14 set flags of other frames, and arithmetic causes only CORE_NUMFLAGS. -/
def maskedFlag (code : Nat) : Option (Nat × Nat) :=
  match code with
  | 0 => some (0x228, 5)
  | 1 => some (0x228, 6)
  | 2 => some (0x250, 0)
  | 3 => some (0x250, 1)
  | 4 => some (0x250, 2)
  | 5 => some (0x250, 3)
  | 6 => some (0x250, 4)
  | 7 => some (0x250, 5)
  | 8 => some (0x250, 6)
  | 12 => some (0x250, 7)
  | _ => none

/-- Set the flag of a masked cause. -/
def State.noteMasked (s : State) (k code : Nat) : State :=
  match maskedFlag code with
  | some (off, bit) => s.raise (.cu k) off bit
  | none => s

end Sys2Proof.Machine
end

