-- ==== Sys2Proof/Machine/TimeOps.lean ====
section
/-! DEFINITION. Time: the postmark master, its region copies, the core cycles of each region and the counters that follow them (R338 to R340, R331, R489, R531, R532). -/
namespace Sys2Proof.Machine

/-- Clock frequency of a region in MHz (R511). -/
def State.clockMhz (s : State) (d : Nat) : Nat := 400 + 25 * s.pwr.steps.getD d 0

/-- How far the copy of region `d` lies from master time `t`: within 2 ns, or within AMP under PTB_PMJITTER (R338, R529). Log 5. -/
def State.copyOffset (s : State) (d t : Nat) : Int :=
  let j := s.reg (.ptb d) 0x1C
  if j.testBit 31 then clampInt (Config.pmJitter d (t / 1000)) (-((j % 256 : Nat) : Int)) ((j % 256 : Nat) : Int)
  else clampInt (Config.pmSkew d t) (-2) 2

/-- The copy of region `d` once the master holds `t`: never less than before (R338). -/
def State.nextCopy (s : State) (d t : Nat) : W64 :=
  let v := ((t : Int) + s.copyOffset d t).toNat
  BitVec.ofNat 64 (max (s.copyOf d).toNat v)

/-- G of R489 for a block. -/
def State.gateOf (s : State) (d b : Nat) : Nat :=
  let g := tget s.pwr.gates (d, b) 0
  if s.pwr.clamp.isSome then max g 12 else g

/-- Cycles not gated among the first `c` of a region's clock: G of every 16, the first ones, are gated (R489; log 130). -/
def ungatedUpTo (g c : Nat) : Nat := c / 16 * (16 - g) + (c % 16 - g)

/-- Cycles that gating leaves a block of the `n` from cycle `c` on (R489). -/
def ungated (g c n : Nat) : Nat := ungatedUpTo g (c + n) - ungatedUpTo g c

/-- Whether a block's clock is stopped in the region's present cycle (R489). -/
def State.gatedNow (s : State) (d b : Nat) : Bool := decide (s.cyclesOf d % 16 < s.gateOf d b)

/-- Counters of one core over the `n` cycles of its region from cycle `c` on: cycle counters without the gated ones, the wait counters through gating (R331, R531, R532). -/
def State.coreTime (s : State) (c n k : Nat) : State :=
  if s.siteOf k = 0xFF then s
  else
    let run := ungated (s.gateOf (regionOf k) (k % 16)) c n
    let s := s.bump (.cu k) 0x4C0 run
    match (s.core k).waiting with
    | none => s
    | some w =>
      match w.kind with
      | .sync _ => s.bump (.cu k) (if w.lowPower then 0x488 else 0x480) n
      | .swaitT _ => s.bump (.cu k) (if w.lowPower then 0x488 else 0x480) n
      | .vqpop => s.bump (.cu k) 0x4B8 run
      | .vqpush => s.bump (.cu k) 0x4B8 run
      | _ => s

/-- Counters of a list of cores. -/
def State.coresTime (s : State) (c n : Nat) : List Nat → State
  | [] => s
  | k :: r => (s.coreTime c n k).coresTime c n r

/-- One region's clock over `dt` ns; a region whose clock is lost has no cycles. -/
def State.regionTime (s : State) (dt t d : Nat) : State :=
  let s : State := { s with pm := { s.pm with copies := tset s.pm.copies d (s.nextCopy d t) } }
  if (s.region d).clockLost then s
  else
    let v := dt * s.clockMhz d + tget s.pm.phase d 0
    let c := s.cyclesOf d
    let s : State := { s with pm := { s.pm with cycles := tset s.pm.cycles d (c + v / 1000), phase := tset s.pm.phase d (v % 1000) } }
    s.coresTime c (v / 1000) ((List.range 16).map (· + 16 * d))

/-- The regions' clocks, one after the other. -/
def State.regionsTime (s : State) (dt t : Nat) : List Nat → State
  | [] => s
  | d :: r => (s.regionTime dt t d).regionsTime dt t r

/-- How the master comes forward by `dt` counts: the ticks that pass, the counts they add, and the postmark's slew afterwards. The first slew is due once 9,999 ticks have passed since the last, the next after as many more; a lead stands still for a tick, a lag takes two counts in one and may pass the aim by one (R340). -/
def Postmark.over (p : Postmark) (dt : Nat) : Nat × Nat × Postmark :=
  let before := 9999 - p.slewAt
  let lead := decide (0 < p.slew)
  let m := min p.slew.natAbs (if before < dt then (dt - before - 1) / (if lead then 9999 else 10001) + 1 else 0)
  let q := if lead || m == 0 then dt else max (before + 9999 * (m - 1)) (dt - 2 * m)
  let since := if m = 0 then p.slewAt + q else q - before - 9999 * (m - 1)
  let slew := if lead then p.slew - m else p.slew + m
  (q + m, if lead then q else q + 2 * m, { p with slew := slew, slewAt := min since 9999 })

/-- Time passes until the master holds `now`, under the slew in progress; a time already past changes nothing. While a module reset runs the postmark does not count (R340, R509). -/
def State.advance (s : State) (now : W64) : State :=
  if !s.pwr.ready || now.toNat ≤ s.pm.master.toNat then s
  else
    let (ticks, counts, p) := s.pm.over (now.toNat - s.pm.master.toNat)
    let t := s.pm.master.toNat + counts
    let s : State := { s with pm := { p with master := BitVec.ofNat 64 t, ran := p.ran + ticks } }
    s.regionsTime ticks t (List.range 8)

/-- What one tick adds to the master: 1, or 2 or 0 when a slew is due, at most once in 10,000 ticks (R340). The offset is the module's lead over its source, so a lead is taken back by standing still. -/
def State.tickStep (s : State) : Nat × Postmark :=
  let p := s.pm
  if p.slew = 0 ∨ p.slewAt < 9999 then (1, { p with slewAt := min (p.slewAt + 1) 9999 })
  else if 0 < p.slew then (0, { p with slew := p.slew - 1, slewAt := 0 })
  else (2, { p with slew := p.slew + 1, slewAt := 0 })

/-- One tick of the postmark domain: what an empty command queue lets happen (log 2). -/
def State.tick (s : State) : State :=
  if !s.pwr.ready then s
  else
    let (n, p) := s.tickStep
    let t := p.master.toNat + n
    let s : State := { s with pm := { p with master := BitVec.ofNat 64 t, ran := p.ran + 1 } }
    s.regionsTime 1 t (List.range 8)

end Sys2Proof.Machine
end

