-- ==== Sys2Proof/Machine/SyncOps.lean ====
section
/-! DEFINITION. Sync objects: translation of identifiers, operations at the object, wait entries and wakes, timers, release conditions (R311 to R327). -/
namespace Sys2Proof.Machine

/-- An object by its physical number. -/
def State.obj (s : State) (o : Nat) : SyncObj := tget s.sync.objs o {}
/-- Replace an object. -/
def State.setObj (s : State) (o : Nat) (x : SyncObj) : State := { s with sync := { s.sync with objs := tset s.sync.objs o x } }
/-- The region of an object (R311). -/
def objRegion (o : Nat) : Nat := o / 4096

/-- The physical range that the catalogue lends to range `r` of context `c` (R367, R505). -/
def State.syncRange (s : State) (c r : Nat) : Option Nat := tget s.cat.ranges (c, r) (if c = 0 then some r else none)

/-- The object an identifier names for a context (R314, R319). -/
def State.objOf (s : State) (ctx : Option Nat) (ident : Nat) : Option Nat :=
  match ctx with
  | none => none
  | some c => if 4096 ≤ ident then none else (s.syncRange c (ident / 64)).map (fun p => p * 64 + ident % 64)

/-- LAST_SOURCE coding (R335): kind in [31:28], index in [15:0]. -/
def srcCode (kind index : Nat) : W32 := BitVec.ofNat 32 (kind * 2 ^ 28 + index)

/-- The largest COUNTER and TARGET (R314). -/
def syncMax : Nat := 2 ^ 31 - 1

/-- The count operand of a sync instruction (R314). -/
def syncN (v : W64) : Nat := min v.toNat syncMax

/-- The object after one operation: kind 0 ARRIVE, 1 DEPART, 2 SRESET (R313, R315). -/
def SyncObj.apply (x : SyncObj) (kind n : Nat) : SyncObj :=
  match kind with
  | 0 => if syncMax < x.counter + n then { x with counter := syncMax, satHi := true } else { x with counter := x.counter + n }
  | 1 => if x.counter < n then { x with counter := 0, satLo := true } else { x with counter := x.counter - n }
  | _ => { x with counter := 0, target := n, satHi := false, satLo := false }

/-- Whether an operation saturates (R315). -/
def SyncObj.saturates (x : SyncObj) (kind n : Nat) : Bool :=
  match kind with
  | 0 => decide (syncMax < x.counter + n)
  | 1 => decide (x.counter < n)
  | _ => false

/-- Wake every wait entry present at an object (R323). -/
def wakeAll (o : Nat) (l : List WaitEnt) : List WaitEnt := l.map (fun w => if w.obj = o then { w with woken := true } else w)

/-- One operation performed at its object (R313, R315, R322, R323): `ctx` and `ident` go into the saturation record. -/
def State.syncAct (s : State) (o kind n : Nat) (src : W32) (ctx ident : Nat) : State :=
  let d := objRegion o
  let x := s.obj o
  let y := x.apply kind n
  let y := if y = x then x else { y with lastSource := src, lastChange := s.copyOf d }
  let s := s.setObj o y
  let s : State := if kind = 2 then { s with sync := { s.sync with timers := tset s.sync.timers d ((tget s.sync.timers d []).filter (fun t => t.obj != o)) } } else s
  let s : State :=
    if x.saturates kind n then
      s.flagEvent (.sync d) 0 0 0x203 ctx (u16 o ++ u16 ident ++ u32 src.toNat ++ u8 (b2n (kind = 0)))
    else s
  if y.target ≤ y.counter then { s with sync := { s.sync with waits := wakeAll o s.sync.waits } } else s

/-- An arrival on an identifier by an engine or a port, or its loss when unbound (R321): `d` is the region whose sync frame translates. -/
def State.arriveOn (s : State) (d ctx ident n : Nat) (src : W32) : State :=
  match s.objOf (some ctx) ident with
  | some o => s.syncAct o 0 n src ctx ident
  | none => s.flagEvent (.sync d) 0 7 0x204 ctx (u16 ident ++ u16 0 ++ u32 src.toNat)

/-- Whether an object satisfies WAIT (R316). -/
def State.satisfied (s : State) (o : Nat) : Bool := decide ((s.obj o).target ≤ (s.obj o).counter)

/-- A waiter's entry. -/
def State.waitOf (s : State) (w : Waiter) : Option WaitEnt := s.sync.waits.find? (fun e => e.who == w)

/-- Add a wait entry that latches the identifier it was begun under, compared with the state at its arrival (R323, R424); one already there stays. -/
def State.addWaitAs (s : State) (w : Waiter) (o ident : Nat) : State :=
  match s.waitOf w with
  | some _ => s
  | none => { s with sync := { s.sync with waits := s.sync.waits ++ [{ who := w, obj := o, woken := s.satisfied o, ident := ident }] } }

/-- Add a wait entry whose identifier nothing needs again. -/
def State.addWait (s : State) (w : Waiter) (o : Nat) : State := s.addWaitAs w o 0

/-- Withdraw a wait entry. -/
def State.dropWait (s : State) (w : Waiter) : State := { s with sync := { s.sync with waits := s.sync.waits.filter (fun e => e.who != w) } }

/-- The region that holds a waiter's entry (R324). -/
def waiterRegion : Waiter → Nat
  | .core k => k.val / 16
  | .desc k _ => k.val / 16
  | .upe e _ => e.val / 2
  | .ce d _ => d.val

/-- WAITERS of an object: entries that wait and the bitmap of their regions (R311). -/
def State.waiters (s : State) (o : Nat) : Nat × Nat :=
  let l := s.sync.waits.filter (fun e => e.obj == o && !e.woken)
  (l.length, packBits ((List.range 8).map (fun d => l.any (fun e => waiterRegion e.who == d))))

/-- The accesses a fence or a release waits for: the core's own writes not yet accepted; a write-back of an evicted sector is performed already (R299, R300, R301). -/
def State.fenceWrites (s : State) (k : Nat) : List PendWrite := (s.ae k).writes.filter (fun w => w.desc.isNone && !w.evict)

/-- Whether a port entry's release condition is met (R301, R318). -/
def State.released (s : State) (k : Nat) (op : SyncOp) : Bool := op.before.all (fun w => !(s.ae k).writes.contains w)

/-- A core's sync port. -/
def State.port (s : State) (k : Nat) : List SyncOp := tget s.sync.ports k []
/-- Replace a core's sync port. -/
def State.setPort (s : State) (k : Nat) (l : List SyncOp) : State := { s with sync := { s.sync with ports := tset s.sync.ports k l } }

/-- Whether a core's port still holds an operation to an object: a later WAIT or SREAD of the core stays behind it (R318). -/
def State.portHolds (s : State) (k o : Nat) : Bool := (s.port k).any (fun p => p.obj == o)

/-- The first entry that may be performed: released, its sync unit not frozen, and no older entry names its object (R318, R61). -/
def State.nextOp (s : State) (k : Nat) : List SyncOp → List SyncOp → Option (SyncOp × List SyncOp)
  | _, [] => none
  | seen, op :: r =>
    if s.released k op && !s.frozen (.sync (objRegion op.obj)) && !(seen.any (fun p => p.obj == op.obj)) then some (op, seen ++ r)
    else s.nextOp k (seen ++ [op]) r

/-- A SIGNAL.AT performed at its object: a timer, an immediate late arrival, or no free timer (R326, R327). -/
def State.signalAct (s : State) (k : Nat) (op : SyncOp) : State :=
  let d := objRegion op.obj
  let src := srcCode 5 d
  let ctx := s.ctxByte k
  let ts := tget s.sync.timers d []
  if op.t.toNat < (s.copyOf d).toNat then (s.syncAct op.obj 0 op.n src ctx op.ident).bump (.cu k) 0x490 1
  else if ts.length < 256 then
    { s with sync := { s.sync with timers := tset s.sync.timers d (ts ++ [⟨op.obj, op.ident, op.n, op.t, k, ctx⟩]) } }
  else if s.masked k 13 then
    ((s.syncAct op.obj 0 op.n src ctx op.ident).bump (.cu k) 0x490 1).raise (.sync d) 0 4
  else s.pendCause k { code := 13, addr := op.pc, info := BitVec.ofNat 64 op.ident }

/-- One port entry performed (R322, R326). -/
def State.portAct (s : State) (k : Nat) (op : SyncOp) : State :=
  let s := s.act k
  if op.kind = 3 then s.signalAct k op
  else s.syncAct op.obj op.kind op.n (srcCode 0 k) (s.ctxByte k) op.ident

/-- Set the objects of a physical range to the state of R312. -/
def State.clearRange (s : State) (p : Nat) : State :=
  let mine := fun o => o / 64 == p
  { s with sync := { s.sync with
      objs := tdelWhere s.sync.objs mine
      timers := s.sync.timers.map (fun e => (e.1, e.2.filter (fun t => !mine t.obj))) } }

/-- An acquire's effect on the tray (R296, R301). -/
def State.acquire (s : State) (k : Nat) : State := s.emptyTray k

end Sys2Proof.Machine
end

