-- ==== Sys2Proof/Machine/TileOps.lean ====
section
/-! DEFINITION. The matrix arrays in their local cycles (chapters 06, 07): issue, the feeder and its ramp, rows through the array, drains, the tile port. The four arrays of a core run in the cycles of one clock; each cycle is cut into eleven phases, and each phase is performed for the arrays in ascending order. Every array event performs all that is due before its own phase. -/
namespace Sys2Proof.Machine

/-! ## Configurations and rows (R184 to R188) -/

/-- The configuration a store has after reset (R188). -/
def resetCfg (t : Nat) : W32 := if t < 8 then 0x7F7F else 0x17FFF

/-- A tile (code 0 to 7) or accumulator (8, 9). -/
def TileArray.store (x : TileArray) (t : Nat) : TileStore := tget x.stores t { cfg := resetCfg t }
/-- Replace a store. -/
def TileArray.setStore (x : TileArray) (t : Nat) (v : TileStore) : TileArray := { x with stores := tset x.stores t v }
/-- Rows of a configuration. -/
def cfgRows (c : W32) : Nat := bits c.toNat 0 8 + 1
/-- Columns of a configuration. -/
def cfgCols (c : W32) : Nat := bits c.toNat 8 8 + 1
/-- Element type of a configuration: 0 K16, 1 binary32. -/
def cfgEtype (c : W32) : Nat := bits c.toNat 16 2
/-- Scale exponent of a configuration. -/
def cfgSe (c : W32) : BitVec 8 := BitVec.ofNat 8 (bits c.toNat 24 8)
/-- Build a configuration. -/
def mkCfg (rm1 cm1 etype : Nat) (se : BitVec 8) : W32 := BitVec.ofNat 32 (rm1 + cm1 * 2 ^ 8 + etype * 2 ^ 16 + se.toNat * 2 ^ 24)

/-- Whether a configuration is valid for a store (R186). -/
def cfgValid (t : Nat) (c : W32) : Bool :=
  bits c.toNat 18 6 == 0 &&
  (if t < 8 then
    (cfgEtype c == 0 && decide (cfgRows c ≤ 128) && decide (cfgCols c ≤ 128)) ||
    (cfgEtype c == 1 && decide (cfgRows c ≤ 128) && decide (cfgCols c ≤ 64))
   else cfgEtype c == 1 && decide (cfgCols c ≤ 128))

/-- The physical row as it stands, whatever its mark. -/
def TileStore.raw (v : TileStore) (r : Nat) : TileRow := tget v.rows r {}
/-- A row as every reader sees it: zeros while its mark is clear (R184). -/
def TileStore.row (v : TileStore) (r : Nat) : TileRow := if (v.raw r).mark then v.raw r else {}
/-- Write a row; its mark is set by the writer. -/
def TileStore.setRow (v : TileStore) (r : Nat) (x : TileRow) : TileStore := { v with rows := tset v.rows r x }
/-- Clear every row mark from row `lo` on. -/
def TileStore.clearMarks (v : TileStore) (lo : Nat) : TileStore :=
  { v with rows := v.rows.map (fun e => if lo ≤ e.1 then (e.1, { e.2 with mark := false }) else e) }
/-- The row marks as a bit mask. -/
def TileStore.marks (v : TileStore) (n : Nat) : Nat := packBits ((List.range n).map (fun r => (v.raw r).mark))

/-- Element `j` of a row, `w` bits wide. -/
def elemOf (b : Nat) (w j : Nat) : Nat := bits b (w * j) w

/-- The queue an operand code names (R237). -/
def queueOf (opd : Nat) : Nat := opd - 8

/-! ## Queues (R246, R279) -/

/-- A queue of a core. -/
def State.queue (s : State) (k q : Nat) : List QEntry := tget (s.ae k).queues q []
/-- Replace a queue. -/
def State.setQueue (s : State) (k q : Nat) (l : List QEntry) : State := s.modAe k (fun a => { a with queues := tset a.queues q l })
/-- Whether a queue has room for `n` entries. -/
def State.room (s : State) (k q n : Nat) : Bool := decide ((s.queue k q).length + n ≤ 64)

/-- The cycle before which PTB_QDELAY holds an entry pushed now (R529). -/
def State.delayFor (s : State) (k q : Nat) : Nat :=
  let v := s.reg (.ptb (regionOf k)) 0x10
  if v.testBit 31 && bits v 0 4 == k % 16 && bits v 4 4 == q then s.cyclesOf (regionOf k) + 1 + bits v 8 16 else 0

/-- Push an entry at a queue's tail; queue order keeps an entry behind the one ahead of it (R529). -/
def State.push (s : State) (k q : Nat) (e : QEntry) : State :=
  let l := s.queue k q
  let ahead := match l.getLast? with | some x => x.ready | none => 0
  s.setQueue k q (l ++ [{ e with ready := max (s.delayFor k q) ahead }])

/-- Whether an array of the core pushed an entry that still lies in a queue in the present cycle (R246). -/
def State.pushedNow (s : State) (k q : Nat) : Bool :=
  (s.queue k q).any (fun e => match e.pushed with | some (b, c) => c == (s.arr k b).cycle | none => false)

/-- Whether an array of the core popped a queue in the present cycle (R246). -/
def State.poppedNow (s : State) (k q : Nat) : Bool := (List.range 4).any (fun b => (s.arr k b).popped.contains q)

/-- Whether an entry can be popped now: PTB_QDELAY no longer holds it, and no array pushed it in the present cycle (R246, R529). -/
def State.ripe (s : State) (k : Nat) (e : QEntry) : Bool :=
  decide (e.ready ≤ s.cyclesOf (regionOf k)) && (match e.pushed with | some (b, c) => c != (s.arr k b).cycle | none => true)

/-- Whether the head of a queue can be popped in this cycle: an entry that is ripe, no pop yet (R246). -/
def State.headReady (s : State) (k q : Nat) : Bool :=
  match s.queue k q with
  | [] => false
  | e :: _ => s.ripe k e && !s.poppedNow k q

/-- Pop the head of a queue. -/
def State.pop (s : State) (k q : Nat) : Option (QEntry × State) :=
  match s.queue k q with
  | [] => none
  | e :: r => some (e, s.setQueue k q r)

/-! ## What an instruction uses (R198, R200, R229) -/

/-- The port an instruction needs: 0 none, 1 stream, 2 weight, 3 drain, 4 tile. -/
def TileOp.portNo : TileOp → Nat
  | .tstream _ => 1
  | .twload _ => 2
  | .tdrain _ _ _ _ _ => 3
  | .tsave _ _ _ => 4
  | .trestore _ _ _ _ _ _ => 4
  | .tmove _ _ _ _ => 4
  | .tfill _ _ _ => 4
  | .temit _ _ _ => 4
  | _ => 0

/-- Tiles and accumulators it reads on array `a`; a TSTREAM's accumulation does not count (R200). -/
def TileOp.reads (a : Nat) : TileOp → List Nat
  | .tsave t _ _ => [t]
  | .tmove sa st _ _ => if sa = a then [st] else []
  | .twload b => if b.opd.toNat < 8 then [b.opd.toNat] else []
  | .tstream b => if b.opd.toNat < 8 then [b.opd.toNat] else []
  | .tdrain b _ _ _ _ => (8 + b.acc.toNat) :: (if b.bias then [b.btile.toNat] else [])
  | .temit _ _ t => [t]
  | _ => []

/-- Tiles it writes on array `a`. -/
def TileOp.writes (a : Nat) : TileOp → List Nat
  | .trestore t _ _ _ _ _ => [t]
  | .tmove _ _ da dt => if da = a then [dt] else []
  | .tdrain b _ _ _ _ => if b.opd.toNat < 8 then [b.opd.toNat] else []
  | .tfill _ _ t => [t]
  | _ => []

/-- Queue heads it pops. -/
def TileOp.pops : TileOp → List Nat
  | .twload b => if b.opd.toNat < 8 then [] else [queueOf b.opd.toNat]
  | .tstream b => if b.opd.toNat < 8 then [] else [queueOf b.opd.toNat]
  | .tfill _ opd _ => [queueOf opd]
  | _ => []

/-- The DLY field (R200). -/
def TileOp.dly : TileOp → Nat
  | .twload b => b.dly.toNat
  | .tstream b => b.dly.toNat
  | .tdrain b _ _ _ _ => b.dly.toNat
  | .tfill d _ _ => d
  | .temit d _ _ => d
  | _ => 0

/-- Instructions still reading, writing or popping: a TSTREAM only until its last row is popped (R200, R211; log 22). -/
def TileArray.holders (x : TileArray) : List TileOp :=
  (x.streams.filter (fun r => x.feeding == some r.seq)).map (fun r => TileOp.tstream r.b)
  ++ (match x.weight with | some r => [r.cmd.op] | none => [])
  ++ (match x.port with | some r => [r.cmd.op] | none => [])
  ++ (match x.drain with | some r => [r.cmd.op] | none => [])

/-- R200, conditions 1 to 3, for an instruction at the head of array `a`'s queue. -/
def TileArray.mayIssue (x : TileArray) (a : Nat) (op : TileOp) : Bool :=
  (match op.portNo with
   | 1 => x.feeding.isNone
   | 2 => x.weight.isNone
   | 3 => x.drain.isNone
   | 4 => x.port.isNone
   | _ => true)
  && x.holders.all (fun h => !(shares (h.reads a) (op.reads a)) && !(shares (h.writes a) (op.writes a)) && !(shares h.pops op.pops))
  && (op.dly == 0 ||
      (x.feeding.isNone && (match x.mark with | some m => decide (m + op.dly ≤ x.cycle) | none => true)))

/-- Whether an instruction in flight uses store `t` (R229): a TSTREAM uses its source tile and its accumulator until it completes. -/
def TileArray.inUse (x : TileArray) (a t : Nat) : Bool :=
  x.holders.any (fun h => (h.reads a).contains t || (h.writes a).contains t)
  || x.streams.any (fun r => (TileOp.tstream r.b).reads a |>.contains t) || x.streams.any (fun r => 8 + r.b.acc.toNat == t)

/-- Whether every tile instruction of an array has completed and its command queue is empty (R197). -/
def TileArray.quiet (x : TileArray) : Bool :=
  x.cmds.isEmpty && x.streams.isEmpty && x.weight.isNone && x.port.isNone && x.drain.isNone && x.clears.isEmpty

/-- Whether all four arrays of a core are quiet. -/
def State.tilesQuiet (s : State) (k : Nat) : Bool := (List.range 4).all (fun a => (s.arr k a).quiet)

/-- Count one event of an array; an increment in a cycle in which a write loaded the counter is lost (R235). -/
def State.count (s : State) (k a off : Nat) : State := if (s.arr k a).lostCounts.contains off then s else s.bump (.tcu k a) off 1

/-- Change a store's configuration; on a store in use the change is counted (R229). DESIGN CHOICE (log 145): writing the configuration it already has counts too. -/
def State.setTileCfg (s : State) (k a t : Nat) (cfg : W32) : State :=
  let x := s.arr k a
  let used := x.inUse a t
  let s := s.setArr k a (x.setStore t { x.store t with cfg := cfg })
  if used then (s.count k a 0x218).flagNow k a 0 else s

/-! ## Phases 0 and 1: converter outputs, pushes (R205, R217, R219, R246) -/

/-- Rows that have passed the converter enter the de-skew buffer. -/
def State.phOutputs (s : State) (k a : Nat) : State :=
  s.modArr k a (fun x =>
    let (outs, rest) := x.conv.partition (fun e => decide (e.1 ≤ x.cycle))
    { x with conv := rest, deskew := x.deskew ++ outs.map (·.2) })

/-- Whether an array can push at a queue's tail in this cycle: room, and no push yet (R246). DESIGN CHOICE (log 146): an entry popped in the same cycle makes no room in it. -/
def State.tailReady (s : State) (k q : Nat) : Bool := s.room k q 1 && !s.pushedNow k q

/-- A TEMIT's row, read in an earlier cycle, is pushed when the tail takes it (R205). -/
def State.emitPush (s : State) (k a : Nat) : State :=
  let x := s.arr k a
  match x.port with
  | some r =>
    (match r.cmd.op, r.held with
     | .temit _ opd _, some e =>
       if s.tailReady k (queueOf opd) then
         (s.push k (queueOf opd) { e with pushed := some (a, x.cycle) }).modArr k a (fun y => { y with port := some { r with held := none, ended := x.cycle } })
       else s
     | _, _ => s)
  | none => s

/-- One entry leaves the de-skew buffer when its queue takes it (R219). -/
def State.drainPush (s : State) (k a : Nat) : State :=
  let x := s.arr k a
  match x.drain, x.deskew with
  | some d, e :: r =>
    let q := queueOf d.b.opd.toNat
    if s.tailReady k q then
      (s.push k q { e with pushed := some (a, x.cycle) }).modArr k a (fun y => { y with deskew := r, drain := some { d with left := d.left - 1 } })
    else s
  | _, _ => s

/-- The pushes of an array in this cycle. DESIGN CHOICE (log 117): where a TEMIT and a TDRAIN of one array name one tail, the TEMIT goes first; R246 orders different arrays only. -/
def State.phPush (s : State) (k a : Nat) : State := (s.emitPush k a).drainPush k a

/-- Queue entries one drained row makes (R216). -/
def DrainRun.perRow (d : DrainRun) : Nat := if d.b.fmt = 2 ∧ 64 < d.cols then 2 else 1

/-- Whether the drain wants to read a row in this cycle. -/
def DrainRun.wants (d : DrainRun) (c : Nat) : Bool := decide (d.read < d.b.rows.toNat) && decide (d.nextRead ≤ c)

/-- The test of R219 for this cycle; DRAIN_HELD is set once per run of held cycles (R233). -/
def State.phHold (s : State) (k a : Nat) : State :=
  let x := s.arr k a
  let h := match x.drain with
    | some d => d.wants x.cycle && decide (8 ≤ d.b.opd.toNat) && decide (32 < x.deskew.length + x.conv.length + d.perRow)
    | none => false
  let s := s.setArr k a { x with held := h }
  if h && !x.held then s.flagNow k a 1 else s

/-! ## Phase 3: issue (R199 to R201) -/

/-- The length S of a ramp step (R220, R232). -/
def State.rampStepLen (s : State) (k a : Nat) : Nat := s.reg (.tcu k a) 4 / 8

/-- Bias values of a TDRAIN, read in its issue cycle (R215, R216). -/
def biasOf (v : TileStore) (cols : Nat) : List W32 :=
  (List.range cols).map (fun n => BitVec.ofNat 32 (elemOf (v.row (n / 64)).bits.toNat 32 (n % 64)))

/-- SIDE entries of a store (R191). -/
def sideOf (v : TileStore) : List Nat :=
  (List.range 256).map (fun r => let x := v.row r; x.tag.toNat + (if x.poison then 2 ^ 15 else 0))

/-- Issue a TSTREAM: latch its shape, swap the weight sets, start a ramp after 64 idle cycles (R189, R201, R208, R220). DESIGN CHOICE (log 143): such a ramp takes the place of one that still runs. -/
def State.issueStream (s : State) (k a : Nat) (cmd : TileCmd) (b : Stream) : State :=
  let x := s.arr k a
  let c := x.cycle
  let src := x.store b.opd.toNat
  let tile := decide (b.opd.toNat < 8)
  let run : StreamRun :=
    { seq := cmd.seq, pc := cmd.pc, precise := cmd.precise, b := b
      len := if tile then cfgCols src.cfg else b.km1.toNat + 1
      etype := if tile then cfgEtype src.cfg else b.etype.toNat
      se := if tile then cfgSe src.cfg else b.se }
  let x := { x with streams := x.streams ++ [run], feeding := some cmd.seq }
  let x : TileArray := if b.swap then
      { x with gens := ⟨x.nextGen, c + 1, x.wShape, x.wShadow⟩ :: x.gens, nextGen := x.nextGen + 1
               wActive := true, wActShape := x.wShape, wLoaded := false }
    else x
  let x : TileArray := if 64 ≤ x.idle then { x with ramp := some ⟨0, c + s.rampStepLen k a, 0⟩, wind := none } else x
  s.setArr k a x

/-- The SE a TDRAIN latches at issue (R98, R102). DESIGN CHOICE (log 139): SE_NEXT is read as it stands, its block poisoned or not. -/
def State.drainSe (s : State) (k : Nat) (b : Drain) (record : Nat) : BitVec 8 :=
  if b.fmt = 2 then 0
  else if b.sesrc then memGet (s.core k).dmem (record / 128 * 128 + 0x54) else b.se

/-- Issue a TDRAIN (R215 to R218). -/
def State.issueDrain (s : State) (k a : Nat) (cmd : TileCmd) (b : Drain) (factor lo hi : W32) (record : Nat) : State :=
  let x := s.arr k a
  let cols := cfgCols (x.store (8 + b.acc.toNat)).cfg
  let se := s.drainSe k b record
  let tile := decide (b.opd.toNat < 8)
  let run : DrainRun :=
    { cmd := cmd, b := b, start := x.cycle, cols := cols, factor := factor, lo := lo, hi := hi
      bias := if b.bias then biasOf (x.store b.btile.toNat) cols else []
      record := record, se := se, nextRead := x.cycle + 1, left := 0 }
  let run := { run with left := if tile then 0 else b.rows.toNat * run.perRow }
  let s : State :=
    if tile then
      let t := b.opd.toNat
      let v := (s.arr k a).store t
      let s := s.modArr k a (fun y => y.setStore t { v with full := true })
      if b.fmt = 2 then s
      else s.setTileCfg k a t (mkCfg (cfgRows v.cfg - 1) (cfgCols v.cfg - 1) (cfgEtype v.cfg) se)
    else s
  s.modArr k a (fun y => { y with drain := some run })

/-- Put an instruction on the tile or weight port. -/
def TileArray.begin (x : TileArray) (cmd : TileCmd) (rows : Nat) (cfg : W32) : PortRun :=
  { cmd := cmd, start := x.cycle, rows := rows, cfg := cfg, ended := x.cycle }

/-- Steps of a TSAVE: the header, SIDE in two, then the rows, an accumulator's in halves; only the header of an empty store (R192, R194). -/
def saveSteps (t : Nat) (full : Bool) : Nat := if full then (if t < 8 then 131 else 515) else 1

/-- Steps of a TRESTORE: SIDE, then the rows, an accumulator's in halves; none for an empty image (R192, R194). -/
def restoreSteps (t : Nat) (empty : Bool) : Nat := if empty then 0 else if t < 8 then 129 else 514

/-- Issue one instruction on array `a` (R189, R195, R198, R201, R206). DESIGN CHOICE (log 141): TRESTORE clears every row mark of its store as it issues. -/
def State.issueOp (s : State) (k a : Nat) (cmd : TileCmd) : State :=
  let x := s.arr k a
  match cmd.op with
  | .tcfg t cfg => s.setTileCfg k a t cfg
  | .trel t => s.setArr k a { x with clears := x.clears ++ [.trel t] }
  | .trela => s.setArr k a { x with clears := x.clears ++ [.trela] }
  | .tzero t => s.setArr k a { x with clears := x.clears ++ [.tzero t] }
  | .tsave t _ _ =>
    let v := x.store t
    s.setArr k a { x with port := some { x.begin cmd (saveSteps t v.full) v.cfg with
      marks := v.marks (if t < 8 then 128 else 256), side := sideOf v, lost := !v.full } }
  | .trestore t _ _ cfg empty marks =>
    let s := s.setTileCfg k a t cfg
    let v := ((s.arr k a).store t).clearMarks 0
    s.modArr k a (fun y => (y.setStore t { v with full := !empty }) )
      |>.modArr k a (fun y => { y with port := some { y.begin cmd (restoreSteps t empty) cfg with marks := marks } })
  | .tmove sa st da dt =>
    let src := (s.arr k sa).store st
    let s := s.setTileCfg k da dt src.cfg
    let s := s.modArr k da (fun y => y.setStore dt { (y.store dt).clearMarks (cfgRows src.cfg) with full := true })
    let run := (s.arr k sa).begin cmd (cfgRows src.cfg) src.cfg
    let s := s.modArr k sa (fun y => { y with port := some run })
    if da = sa then s
    else s.modArr k da (fun y => { y with port := some { run with begun := run.rows }, cmds := y.cmds.drop 1, issuedAt := y.cycle + 1 })
  | .twload b =>
    let shape := if b.opd.toNat < 8 then (x.store b.opd.toNat).cfg else mkCfg b.km1.toNat b.nm1.toNat b.etype.toNat b.se
    s.setArr k a { x with wLoaded := true, wShape := shape, weight := some (x.begin cmd (cfgRows shape) shape) }
  | .tstream b => s.issueStream k a cmd b
  | .tdrain b f lo hi r => s.issueDrain k a cmd b f lo hi r
  | .tfill _ _ t =>
    let v := x.store t
    s.setArr k a { x.setStore t { v with full := true } with port := some (x.begin cmd (cfgRows v.cfg) v.cfg) }
  | .temit _ _ t => s.setArr k a { x with port := some (x.begin cmd (cfgRows (x.store t).cfg) (x.store t).cfg) }

/-- Whether the crossbar carries a TMOVE (R196). -/
def State.crossbarBusy (s : State) (k : Nat) : Bool :=
  (List.range 4).any (fun a => match (s.arr k a).port with
    | some r => (match r.cmd.op with | .tmove _ _ _ _ => true | _ => false)
    | none => false)

/-- Whether an array has issued in the present cycle (R199). -/
def TileArray.issued (x : TileArray) : Bool := x.issuedAt == x.cycle + 1

/-- Whether the TMOVE at the head of array `sa` may issue: it stands at the head of both queues and both arrays meet R200 and have issued nothing else in this cycle (R196, R199). -/
def State.moveReady (s : State) (k sa da : Nat) (cmd : TileCmd) : Bool :=
  let y := s.arr k da
  (s.arr k sa).mayIssue sa cmd.op && y.mayIssue da cmd.op && y.cmds.head? == some cmd && !y.issued

/-- Whether the head of array `a`'s command queue issues in this cycle (R199, R200, R196). A TMOVE issues with its source array; the arrays come in ascending order, so the lower source takes the crossbar. -/
def State.headIssues (s : State) (k a : Nat) : Option TileCmd :=
  let x := s.arr k a
  match x.cmds with
  | [] => none
  | cmd :: _ =>
    if x.issued then none
    else match cmd.op with
    | .tmove sa _ da _ => if sa = a && !s.crossbarBusy k && s.moveReady k sa da cmd then some cmd else none
    | op => if x.mayIssue a op then some cmd else none

/-- The array issues at most one instruction (R199). -/
def State.phIssue (s : State) (k a : Nat) : State :=
  match s.headIssues k a with
  | none => s
  | some cmd => (((s.modArr k a (fun y => { y with cmds := y.cmds.drop 1, issuedAt := y.cycle + 1 })).issueOp k a cmd)).act k

/-! ## Phase 4: the feeder (R211 to R213, R222) -/

/-- An array pops the head of a queue (R246). -/
def State.arrPop (s : State) (k a q : Nat) : Option (QEntry × State) :=
  (s.pop k q).map (fun r => (r.1, r.2.modArr k a (fun y => { y with popped := q :: y.popped })))

/-- The next row of the stream that holds the port: from its tile, or from its queue when an entry can be popped. -/
def State.streamRow (s : State) (k a : Nat) (r : StreamRun) : Option (QEntry × State) :=
  let x := s.arr k a
  let opd := r.b.opd.toNat
  if opd < 8 then
    let t := (x.store opd).row r.popped
    some ({ row := t.bits.setWidth 2048, valid := true, tag := t.tag, poison := t.poison }, s)
  else if s.headReady k (queueOf opd) then s.arrPop k a (queueOf opd) else none

/-- The generation of weights a row meets that enters now. -/
def TileArray.genNow (x : TileArray) : Nat := match x.gens with | g :: _ => g.id | [] => 0

/-- Update one TSTREAM of an array. -/
def TileArray.modStream (x : TileArray) (seq : Nat) (f : StreamRun → StreamRun) : TileArray :=
  { x with streams := x.streams.map (fun r => if r.seq = seq then f r else r) }

/-- The feeder pops a row, or admits a bubble and counts its cause (R211, R212, R222). -/
def State.feed (s : State) (k a : Nat) (r : StreamRun) (credit : Option Nat) : State :=
  let x := s.arr k a
  if x.held then s.count k a 0x208
  else if (match credit with | some c => decide (c < 8) | none => false) then s.count k a 0x210
  else
    match s.streamRow k a r with
    | none => s.count k a 0x200
    | some (e, s) =>
      let row : FlightRow :=
        { stream := r.seq, entry := x.cycle + 1, bits := e.row, valid := e.valid, tag := e.tag, poison := e.poison
          acc := r.b.acc.toNat, row := r.b.row0.toNat + r.popped, gen := x.genNow }
      let last := r.popped + 1 = r.b.rows.toNat
      s.modArr k a (fun y =>
        let y := y.modStream r.seq (fun q => { q with popped := q.popped + 1 })
        { y with
          flight := y.flight ++ [row]
          ramp := y.ramp.map (fun p => { p with credit := p.credit - 8 })
          feeding := if last then none else y.feeding
          mark := if last then some (x.cycle + 1) else y.mark })

/-- The feeder's cycle: ramp credit rises, a row or a bubble enters, the credit is limited; idle cycles are counted; an array that becomes idle winds down (R220 to R222). -/
def State.feederStep (s : State) (k a : Nat) : State :=
  let s := s.modArr k a (fun y => { y with ramp := y.ramp.map (fun p => { p with credit := p.credit + p.step + 1 }) })
  let x := s.arr k a
  let s : State := match x.feeding with
    | none => s.setArr k a { x with idle := x.idle + 1 }
    | some q =>
      match x.streams.find? (fun r => r.seq == q) with
      | none => s
      | some r =>
        let s := s.feed k a r (x.ramp.map (·.credit))
        s.modArr k a (fun y => { y with idle := 0, wind := if y.feeding.isNone then some ⟨0, x.cycle + 1 + s.rampStepLen k a⟩ else none })
  s.modArr k a (fun y => { y with ramp := y.ramp.map (fun p => { p with credit := min p.credit 8 }) })

/-- A weight row comes to the weight port; it is written one cycle later (R207). -/
def State.weightRow (s : State) (k a : Nat) (r : PortRun) (v : WRow) : State :=
  s.modArr k a (fun y => { y with due := y.due ++ [(y.cycle + 1, DueWrite.shadow r.begun v)], weight := some { r with begun := r.begun + 1, ended := y.cycle + 1 } })

/-- The pops of a TWLOAD and of a TFILL in this cycle (R205, R207). -/
def State.portPops (s : State) (k a : Nat) : State :=
  let c := (s.arr k a).cycle
  let s : State := match (s.arr k a).weight with
    | some r =>
      (match r.cmd.op with
       | .twload b =>
         if c ≤ r.start ∨ r.rows ≤ r.begun ∨ b.opd.toNat < 8 ∨ !s.headReady k (queueOf b.opd.toNat) then s
         else match s.arrPop k a (queueOf b.opd.toNat) with
           | none => s
           | some (e, s) => s.weightRow k a r ⟨if e.valid then e.row else 0, e.poison⟩
       | _ => s)
    | none => s
  match (s.arr k a).port with
  | some r =>
    (match r.cmd.op with
     | .tfill _ opd t =>
       if c ≤ r.start ∨ r.rows ≤ r.begun ∨ !s.headReady k (queueOf opd) then s
       else match s.arrPop k a (queueOf opd) with
         | none => s
         | some (e, s) =>
           let v : TileRow := { bits := if e.valid then e.row.setWidth 4096 else 0, mark := true, tag := e.tag, poison := e.poison }
           s.modArr k a (fun y => { y with due := y.due ++ [(c + 1, DueWrite.tile a t r.begun v)], port := some { r with begun := r.begun + 1, ended := c + 1 } })
     | _ => s)
  | none => s

/-- The feeder, then the other pops of an array. -/
def State.phFeed (s : State) (k a : Nat) : State := (s.feederStep k a).portPops k a

/-! ## Phase 5: reads (R205, R207, R216, R217, R192, R193, R195) -/

/-- A part of a translated image: the segments that cover `n` bytes from offset `off`. -/
def subSegs : List Seg → Nat → Nat → List Seg
  | [], _, _ => []
  | g :: r, off, n =>
    if g.len ≤ off then subSegs r (off - g.len) n
    else
      let len := min (g.len - off) n
      if n = 0 then [] else ⟨g.va + off, g.pa + off, len, g.na⟩ :: subSegs r 0 (n - len)

/-- Whether every piece still lies in granules lent to the context (R193). -/
def State.segsLent (s : State) (ctx : Nat) (l : List Seg) : Bool :=
  l.all (fun g => s.granuleLent (g.pa / 2 ^ 30) ctx && s.granuleLent ((g.pa + g.len - 1) / 2 ^ 30) ctx)

/-- Write part of a TSAVE image, or lose it and set IMAGE_LOST (R193); else the state while the sorting frame holds it (R255, R277, R293). -/
def State.imageWrite (s : State) (k a ctx : Nat) (img : List Seg) (off : Nat) (data : List Byte) (poison : Bool) : Except State State :=
  let segs := subSegs img off data.length
  if s.segsLent ctx segs then
    let l := lineGroups (segParts poison segs data)
    if s.writesGo k l then .ok (s.writeLines k (some (a, ctx)) l) else .error (s.writeStall k l)
  else .ok (s.flagNow k a 5)

/-- Read part of a TRESTORE image: what it gives, and whether the piece is lost (R193); else the state while the sorting frame holds it. -/
def State.imageRead (s : State) (k a ctx : Nat) (img : List Seg) (off n : Nat) : Except State (Rd × Bool) :=
  let segs := subSegs img off n
  if s.segsLent ctx segs then (if s.readsGo k segs then .ok (s.readSegs k false segs, false) else .error (s.readStall k segs))
  else .ok (⟨s.flagNow k a 5, List.replicate n 0, true, none⟩, true)

/-- Bytes per physical row. -/
def rowBytes (t : Nat) : Nat := if t < 8 then 256 else 512

/-- The header bytes a TSAVE writes, 0x000 to 0x03F (R191). -/
def imageHeader (r : PortRun) (t : Nat) (empty : Bool) : List Byte :=
  u32 r.cfg.toNat ++ u32 (b2n empty + 2 * b2n (decide (8 ≤ t))) ++ List.replicate 24 0 ++ leBytes 32 r.marks

/-- The row a step of up to 256 bytes works on, and where in it (R194). -/
def stepRow (t j : Nat) : Nat × Nat := if t < 8 then (j, 0) else (j / 2, 256 * (j % 2))

/-- One step of a TSAVE (R192, R194): the header, SIDE in two, then each marked row; else the state while it waits. -/
def State.saveStep (s : State) (k a : Nat) (r : PortRun) (t ctx : Nat) (img : List Seg) : Except State State :=
  if r.begun = 0 then s.imageWrite k a ctx img 0 (imageHeader r t r.lost) false
  else if r.begun < 3 then s.imageWrite k a ctx img (0x40 + 256 * (r.begun - 1)) (((r.side.drop (128 * (r.begun - 1))).take 128).flatMap u16) false
  else
    let (row, off) := stepRow t (r.begun - 3)
    if r.marks.testBit row then
      let x := ((s.arr k a).store t).raw row
      s.imageWrite k a ctx img (0x400 + rowBytes t * row + off) (leBytes 256 (x.bits.toNat >>> (8 * off))) ((r.side.getD row 0).testBit 15)
    else .ok s

/-- A row that a TRESTORE has read is written: zeros with poison when a piece of it was lost (R193, R194). -/
def State.restoreRow (s : State) (k a t row side : Nat) (h : HalfRow) : State :=
  let lost := h.lost || side.testBit 16
  let v : TileRow := { bits := if lost then 0 else BitVec.ofNat 4096 (leNat h.bytes), mark := true, tag := BitVec.ofNat 10 side
                       poison := lost || side.testBit 15 || h.poison }
  s.modArr k a (fun y => y.setStore t ((y.store t).setRow row v))

/-- One step of a TRESTORE (R192 to R194): SIDE, then each marked row; an entry of SIDE that was lost is marked by bit 16. Else the state while it waits. -/
def State.restoreStep (s : State) (k a : Nat) (r : PortRun) (t ctx : Nat) (img : List Seg) : Except State (State × PortRun) :=
  let sides := if t < 8 then 1 else 2
  if r.begun < sides then
    (s.imageRead k a ctx img (0x40 + 256 * r.begun) 256).map (fun x =>
      (x.1.st, { r with side := r.side ++ (if x.2 then List.replicate 128 (2 ^ 16) else (chunksOf 2 128 x.1.bytes).map leNat) }))
  else
    let (row, off) := stepRow t (r.begun - sides)
    if r.marks.testBit row then
      (s.imageRead k a ctx img (0x400 + rowBytes t * row + off) 256).map (fun x =>
        let h : HalfRow := match r.half with
          | some g => ⟨g.bytes ++ x.1.bytes, g.poison || x.1.poison, g.lost || x.2⟩
          | none => ⟨x.1.bytes, x.1.poison, x.2⟩
        if rowBytes t ≤ off + 256 then (x.1.st.restoreRow k a t row (r.side.getD row 0) h, { r with half := none })
        else (x.1.st, { r with half := some h }))
    else .ok (s, r)

/-- The tile port's read or memory step in this cycle. -/
def State.portStep (s : State) (k a : Nat) (r : PortRun) : State :=
  let x := s.arr k a
  let c := x.cycle
  let next := fun (st : State) (r' : PortRun) => st.modArr k a (fun y => { y with port := some r' })
  if c ≤ r.start ∨ r.rows ≤ r.begun then s
  else
    match r.cmd.op with
    | .tsave t ctx img =>
      (match s.saveStep k a r t ctx img with
       | .ok s => next s { r with begun := r.begun + 1, ended := c }
       | .error s => s)
    | .trestore t ctx img _ _ _ =>
      (match s.restoreStep k a r t ctx img with
       | .ok (s, r) => next s { r with begun := r.begun + 1, ended := c }
       | .error s => s)
    | .tmove sa st da dt =>
      if sa = a then
        let v := (x.store st).row r.begun
        let s := s.modArr k a (fun y => { y with due := y.due ++ [(c + 1, DueWrite.tile da dt r.begun v)] })
        next s { r with begun := r.begun + 1, ended := c + 1 }
      else s
    | .temit _ _ t =>
      if r.held.isNone then
        let v := (x.store t).row r.begun
        next s { r with begun := r.begun + 1, ended := c + 1
                        held := some { row := v.bits.setWidth 2048, valid := v.mark, tag := v.tag, poison := v.poison } }
      else s
    | _ => s

/-- The weight port's read of a tile row in this cycle (R207). -/
def State.weightStep (s : State) (k a : Nat) (r : PortRun) : State :=
  let x := s.arr k a
  match r.cmd.op with
  | .twload b =>
    if x.cycle ≤ r.start ∨ r.rows ≤ r.begun ∨ 8 ≤ b.opd.toNat then s
    else
      let v := (x.store b.opd.toNat).row r.begun
      s.weightRow k a r ⟨v.bits.setWidth 2048, v.poison⟩
  | _ => s

/-- The limits of a clip, LO then HI; a NaN bound is no bound (R97). -/
def clip32 (lo hi y : Nat) : Nat :=
  match fmt32.num y with
  | .nan _ => y
  | ny =>
    let y := match fmt32.num lo with
      | .nan _ => y
      | nl => if numLt ny nl then lo else y
    match fmt32.num hi with
    | .nan _ => y
    | nh => if numLt nh (fmt32.num y) then hi else y

/-- The scale factor c of stage 1: 2^SHIFT, or the binary32 factor (R97, R241). -/
def DrainRun.scale (d : DrainRun) : Nat :=
  if d.b.smode then d.factor.toNat else (fmt32.round false 1 (d.b.shift.toInt) false).v

/-- One element through the converter: the encoding it becomes, the clipped value, the flags (R97). DESIGN CHOICE (log 138): of several NaNs the one returned is the element's, then the factor's, then the bias's. -/
def DrainRun.convert (d : DrainRun) (n x : Nat) : FRes × Nat :=
  let y := if d.b.bias then fmt32.fma x d.scale (d.bias.getD n 0).toNat else fmt32.mul x d.scale
  let z := if d.b.clip then clip32 d.lo.toNat d.hi.toNat y.v else y.v
  match d.b.fmt.toNat with
  | 0 => let q := fmt32.toK 10 d.se.toInt z; (⟨q.v, y.fl ||| q.fl⟩, z)
  | 1 => let q := fmt32.toK 6 d.se.toInt z; (⟨q.v, y.fl ||| q.fl⟩, z)
  | _ => (⟨z, y.fl⟩, z)

/-- Update one drain's running amax and saturation by the elements of an unpoisoned row (R99, R102). -/
def DrainRun.observe (d : DrainRun) (poison : Bool) (els : List (FRes × Nat)) : DrainRun :=
  if poison then d
  else { d with
    amax := els.foldl (fun m e => match amax32 e.2 with | some v => max m v | none => m) d.amax
    sat := d.sat || els.any (fun e => e.1.fl.testBit 10) }

/-- The drain reads a row and sends it through the converter (R216 to R218). -/
def State.drainStep (s : State) (k a : Nat) (d : DrainRun) : State :=
  let x := s.arr k a
  let c := x.cycle
  if !d.wants c then s
  else if x.held then s.modArr k a (fun y => { y with drain := some { d with nextRead := c + 1 } })
  else
    let row := (x.store (8 + d.b.acc.toNat)).row (d.b.row0.toNat + d.read)
    let els := (List.range d.cols).map (fun n => d.convert n (elemOf row.bits.toNat 32 n))
    let fl := els.foldl (fun f e => f ||| e.1.fl) 0
    let new := fl &&& (0x1FFF ^^^ d.flags)
    let d : DrainRun := d.observe row.poison els
    let d : DrainRun := { d with flags := d.flags ||| fl, read := d.read + 1 }
    let w := match d.b.fmt.toNat with | 0 => 16 | 1 => 12 | _ => 32
    let words := els.map (fun e => e.1.v)
    let s := s.arithNow k d.cmd.precise d.cmd.pc new d.flags
    let ent := fun (l : List Nat) => ({ row := BitVec.ofNat 2048 (packWords w l), valid := true, tag := row.tag, poison := row.poison } : QEntry)
    if d.b.opd.toNat < 8 then
      let v : TileRow := { bits := BitVec.ofNat 4096 (packWords w words), mark := true, tag := row.tag, poison := row.poison }
      s.modArr k a (fun y => { y with
        due := y.due ++ [(c + 7, DueWrite.tile a d.b.opd.toNat (d.read - 1) v)]
        drain := some { d with nextRead := if d.read = d.b.rows.toNat then c + 7 else c + 1 } })
    else if d.perRow = 2 then
      s.modArr k a (fun y => { y with
        conv := y.conv ++ [(c + 7, ent (words.take 64)), (c + 8, ent (words.drop 64))]
        drain := some { d with nextRead := c + 2 } })
    else
      s.modArr k a (fun y => { y with conv := y.conv ++ [(c + 7, ent words)], drain := some { d with nextRead := c + 1 } })

/-- The accumulate stage latches the accumulator rows of rows entered 256 cycles ago (R209, R228); a poisoned row that enters now sets POISON_IN (R233). -/
def TileArray.latch (x : TileArray) : TileArray :=
  { x with
    flight := x.flight.map (fun r => if r.entry + 256 = x.cycle then { r with latched := some ((x.store (8 + r.acc)).row r.row) } else r)
    newFlags := (x.flight.filter (fun r => r.entry == x.cycle && r.poison)).map (fun _ => 3) ++ x.newFlags }

/-- All reads of a cycle. -/
def State.phRead (s : State) (k a : Nat) : State :=
  let s := s.modArr k a TileArray.latch
  let s : State := match (s.arr k a).drain with | some d => s.drainStep k a d | none => s
  let s : State := match (s.arr k a).weight with | some r => s.weightStep k a r | none => s
  match (s.arr k a).port with | some r => s.portStep k a r | none => s

/-! ## Phase 6: the accumulate stage (R80, R209, R213) -/

/-- A K16 fused multiply-add of R80: value(a) value(w) 2^se + z, rounded once to binary32. -/
def fmaK (a w : Nat) (se : Int) (z : Nat) : FRes :=
  match fmt32.num z with
  | .nan _ => ⟨z ||| fmt32.quiet, 0⟩
  | .inf _ => ⟨z, 0⟩
  | .fin c m h =>
    match kNum 10 a, kNum 10 w with
    | .fin p u e, .fin q v g =>
      let pe := e + g + se
      let lo := min pe h
      fmt32.roundInt (alignTo (p != q) (u * v) pe lo + alignTo c m h lo) lo
        ((p != q) && c && decide (u * v = 0) && decide (m = 0))
    | _, _ => ⟨z, 0⟩

/-- One column's chain of multiply-adds from row 0 downwards (R80). -/
def columnSum (etype : Nat) (se : Int) (row : Nat) (g : WGen) (n : Nat) : List Nat → FRes → FRes
  | [], acc => acc
  | j :: r, acc =>
    let w := (tget g.rows j {}).bits.toNat
    let q := if etype = 1 then fmt32.fma (elemOf row 32 j) (elemOf w 32 n) acc.v
             else fmaK (elemOf row 16 j) (elemOf w 16 n) se acc.v
    columnSum etype se row g n r ⟨q.v, acc.fl ||| q.fl⟩

/-- The new contents of an accumulator row: sums over what was latched one cycle before, poison over what stands there too, since a poison bit stays set (R80, R213). -/
def accumulate (run : StreamRun) (r : FlightRow) (g : WGen) (old : TileRow) (poisoned : Bool) : TileRow × Nat :=
  let cols := cfgCols g.shape
  let se := run.se.toInt + (cfgSe g.shape).toInt
  let els := (List.range cols).map (fun n =>
    let c := columnSum run.etype se r.bits.toNat g n (List.range run.len) ⟨0, 0⟩
    let t := fmt32.add (elemOf old.bits.toNat 32 n) c.v
    (t.v, c.fl ||| t.fl))
  let rest := old.bits.toNat >>> (32 * cols) <<< (32 * cols)
  let bad := (List.range run.len).any (fun j => (tget g.rows j {}).poison)
  ({ bits := BitVec.ofNat 4096 (packWords 32 (els.map (·.1)) + rest), mark := true, tag := r.tag
     poison := poisoned || old.poison || r.poison || bad }, els.foldl (fun f e => f ||| e.2) 0)

/-- Write one row that entered 257 cycles ago; a row with valid = 0 leaves its accumulator row unchanged (R81, R209, R213). -/
def State.accWrite (s : State) (k a : Nat) (r : FlightRow) : State :=
  let x := s.arr k a
  match x.streams.find? (fun q => q.seq == r.stream) with
  | none => s
  | some run =>
    let fin := fun (st : State) (fl : Nat) => st.modArr k a (fun y =>
      if run.written + 1 = run.b.rows.toNat then { y with streams := y.streams.filter (fun q => q.seq != run.seq) }
      else y.modStream run.seq (fun q => { q with written := q.written + 1, flags := q.flags ||| fl }))
    if !r.valid then fin s 0
    else
      match x.gens.find? (fun g => g.id == r.gen) with
      | none => fin s 0
      | some g =>
        let (v, fl) := accumulate run r g (r.latched.getD {}) ((x.store (8 + r.acc)).row r.row).poison
        let s := s.modArr k a (fun y => y.setStore (8 + r.acc) ((y.store (8 + r.acc)).setRow r.row v))
        let s := s.arithNow k run.precise run.pc (fl &&& (0x1FFF ^^^ run.flags)) (run.flags ||| fl)
        fin s fl

/-- Write a list of rows in order. -/
def State.accWrites (s : State) (k a : Nat) : List FlightRow → State
  | [] => s
  | r :: t => (s.accWrite k a r).accWrites k a t

/-- The accumulate stage's writes of this cycle; a TSTREAM completes with its last one (R202). -/
def State.phAccumulate (s : State) (k a : Nat) : State :=
  let x := s.arr k a
  let (now, rest) := x.flight.partition (fun r => r.entry + 257 == x.cycle)
  let before := x.streams.length
  let s := (s.setArr k a { x with flight := rest }).accWrites k a now
  if (s.arr k a).streams.length < before then s.act k else s

/-! ## Phase 7: other writes (R207, R208) -/

/-- The first column of weight row `j` whose cell copies after the end of cycle `w` (R208). -/
def copyFrom (g : WGen) (j w : Nat) : Nat :=
  if cfgEtype g.shape = 1 then (w + 1 - g.e0 + 1) / 2 - j else w + 1 - g.e0 - j

/-- A shadow row written at the end of cycle `w` reaches the cells the wavefront has not passed (R208). -/
def patchGen (g : WGen) (j w : Nat) (v : WRow) : WGen :=
  let n := copyFrom g j w
  let width := if cfgEtype g.shape = 1 then 32 else 16
  let cells := if cfgEtype g.shape = 1 then 64 else 128
  if cells ≤ n then g
  else
    let old := tget g.rows j {}
    let low := old.bits.toNat % 2 ^ (width * n)
    let high := v.bits.toNat >>> (width * n) <<< (width * n)
    { g with rows := tset g.rows j ⟨BitVec.ofNat 2048 (low + high), v.poison || (old.poison && n != 0)⟩ }

/-- Perform one due write. -/
def State.doWrite (s : State) (k a : Nat) (w : DueWrite) : State :=
  match w with
  | .tile arr t r v => s.modArr k arr (fun y => y.setStore t ((y.store t).setRow r v))
  | .shadow j v =>
    let s := s.modArr k a (fun y =>
      { y with wShadow := tset y.wShadow j v, gens := y.gens.map (fun g => patchGen g j y.cycle v) })
    if v.poison then s.flagNow k a 3 else s

/-- Perform writes in order. -/
def State.doWrites (s : State) (k a : Nat) : List DueWrite → State
  | [] => s
  | w :: r => (s.doWrite k a w).doWrites k a r

/-- The other writes of this cycle. -/
def State.phWrite (s : State) (k a : Nat) : State :=
  let x := s.arr k a
  let (now, rest) := x.due.partition (fun e => decide (e.1 ≤ x.cycle))
  (s.setArr k a { x with due := rest }).doWrites k a (now.map (·.2))

/-! ## Phase 8: completion (R102, R202) -/

/-- A signed byte clamped to the range of SE (R100). -/
def clampSe (v : Int) : Nat := wrapNat (clampInt v (-128) 127) 8

/-- The completion update of a scale record, from its 96 bytes (R101, R102). DESIGN CHOICE (log 123): E(m) is stated for positive finite m only; an AMAX entry that software left NaN or negative is passed over, and an infinite one counts as exponent 127. -/
def recordUpdate (b : List Byte) (se : BitVec 8) (amax : Nat) (sat : Bool) : List Byte :=
  let at_ := fun (i : Nat) => (b.getD i 0).toNat
  let w := fun (i : Nat) => leNat ((b.drop i).take 4)
  let hr := if at_ 0x52 = 0 then 2 else min (at_ 0x52) 15
  let h := at_ 0x50 % 16
  let count := min (at_ 0x51) 16
  let pen := min (at_ 0x53) 64
  let b := patch b (4 * h) (leBytes 4 amax)
  let b := patch b (0x40 + h) [se]
  let h' := (h + 1) % 16
  let count := min (count + 1) 16
  let pen := if sat then min (pen + hr) 64 else 0
  let corr := if sat then min (w 0x58 + 1) 0xFFFFFFFF else w 0x58
  let m := ((List.range count).map (fun i => leNat ((b.drop (4 * ((h' + 16 - (i + 1)) % 16))).take 4))).foldl
    (fun m v => match fmt32.num v, fmt32.num m with
      | .nan _, _ => m
      | nv, nm => if numLt nm nv then v else m) 0
  let next := if m % 2 ^ 31 = 0 then se.toNat
    else clampSe ((match fmt32.num m with | .inf _ => 127 | _ => expOf32 m) + (hr : Int) - 15 + pen)
  let b := patch b 0x50 [BitVec.ofNat 8 h', BitVec.ofNat 8 count]
  let b := patch b 0x53 [BitVec.ofNat 8 pen, BitVec.ofNat 8 next, se]
  patch b 0x58 (leBytes 4 corr ++ leBytes 4 (w 0x5C + 1))

/-- The indivisible update of the scale record a drain names (R102, R103). DESIGN CHOICE (log 139): the record is read as it stands, its block poisoned or not. -/
def State.updateRecord (s : State) (k : Nat) (d : DrainRun) : State :=
  if d.b.sesrc && d.b.fmt != 2 then
    let a := d.record / 128 * 128
    s.dmemWrite k a (recordUpdate (s.dmemBytes k a 0x60) d.se d.amax d.sat)
  else s

/-- Whether a drain has pushed its last entry or written its last row. -/
def DrainRun.finished (d : DrainRun) (c : Nat) : Bool :=
  d.read == d.b.rows.toNat && d.left == 0 && (decide (8 ≤ d.b.opd.toNat) || decide (d.nextRead ≤ c))

/-- Whether a port's instruction has finished by cycle `c`; a TSAVE waits for its writes to be performed. -/
def State.portDone (s : State) (k a : Nat) (r : PortRun) (c : Nat) : Bool :=
  decide (r.rows ≤ r.begun) && decide (r.start < c) && decide (r.ended ≤ c) && r.held.isNone &&
  (match r.cmd.op with
   | .tsave _ _ _ => decide (0 < r.begun) && (s.ae k).writes.all (fun w => w.tile.map (·.1) != some a)
   | .tmove sa _ _ _ => sa == a
   | _ => true)

/-- Completions at the end of a cycle: a drain updates its scale record; ports are free from the next cycle (R102, R202, R245). -/
def State.phComplete (s : State) (k a : Nat) : State :=
  let x := s.arr k a
  let s : State := match x.drain with
    | some d => if d.finished x.cycle then ((s.updateRecord k d).modArr k a (fun y => { y with drain := none })).act k else s
    | none => s
  let s : State := match x.weight with
    | some r => if s.portDone k a r x.cycle then (s.modArr k a (fun y => { y with weight := none })).act k else s
    | none => s
  match x.port with
  | some r =>
    if s.portDone k a r x.cycle then
      let s : State := match r.cmd.op with
        | .tmove _ _ da _ => s.modArr k da (fun y => { y with port := none })
        | _ => s
      (s.modArr k a (fun y => { y with port := none })).act k
    else s
  | none => s

/-! ## Phases 9 and 10: ramp steps, wind-down, the end of the cycle -/

/-- A step of a ramp or of a wind-down ends after its last cycle; later steps last the S then in force (R223, R232). -/
def State.phRamp (s : State) (k a : Nat) : State :=
  let len := s.rampStepLen k a
  s.modArr k a (fun y => { y with
    ramp := match y.ramp with
      | some p => if p.stepEnd ≤ y.cycle + 1 then (if p.step = 7 then none else some ⟨p.step + 1, y.cycle + 1 + len, p.credit⟩) else some p
      | none => none
    wind := match y.wind with
      | some w => if w.stepEnd ≤ y.cycle + 1 then (if w.step = 7 then none else some ⟨w.step + 1, y.cycle + 1 + len⟩) else some w
      | none => none })

/-- TREL, TRELA and TZERO change marks at the end of their issue cycle, after its row writes (R189, R228). -/
def TileArray.clear (x : TileArray) (op : TileOp) : TileArray :=
  match op with
  | .tzero t => x.setStore t { (x.store t).clearMarks 0 with full := true }
  | .trel t => x.setStore t { (x.store t).clearMarks 0 with full := false }
  | .trela =>
    let x := (List.range 10).foldl (fun y t => y.setStore t { (y.store t).clearMarks 0 with full := false }) x
    { x with wActive := false, wLoaded := false }
  | _ => x

/-- Generations no row in flight can meet any more are dropped. -/
def TileArray.prune (x : TileArray) : TileArray :=
  match x.gens with
  | [] => x
  | g :: r => { x with gens := g :: r.filter (fun h => x.flight.any (fun f => f.gen == h.id)) }

/-- The local cycle rises: the cycle's flags set in bit order, its pops and its lost increments are over (R55, R233, R235, R246). -/
def State.cycleOver (s : State) (k a : Nat) : State :=
  (s.flagsDue k a).modArr k a (fun y => { y with popped := [], lostCounts := [], cycle := y.cycle + 1 })

/-- The end of a cycle: marks cleared after its row writes (R189), then the cycle is over. -/
def State.phEnd (s : State) (k a : Nat) : State :=
  (s.modArr k a (fun y => { (y.clears.foldl TileArray.clear y).prune with clears := [] })).cycleOver k a

/-! ## Advancing the arrays of a core -/

/-- Perform phase `p` of the present cycle for one array. -/
def State.tilePhase (s : State) (k a p : Nat) : State :=
  match p with
  | 0 => s.phOutputs k a
  | 1 => s.phPush k a
  | 2 => s.phHold k a
  | 3 => s.phIssue k a
  | 4 => s.phFeed k a
  | 5 => s.phRead k a
  | 6 => s.phAccumulate k a
  | 7 => s.phWrite k a
  | 8 => s.phComplete k a
  | 9 => s.phRamp k a
  | _ => s.phEnd k a

/-- One array's part of phase `p`. A frozen array does nothing, but its local cycle goes on with the others' (R61). -/
def State.tilePart (s : State) (k a p : Nat) : State :=
  if s.frozen (.tcu k a) then (if p = 10 then s.cycleOver k a else s)
  else s.tilePhase k a p

/-- The next phase of the four arrays of a core, in ascending order. Arithmetic flags are raised in phases 5 and 6 only; those of one cycle set together after it. -/
def State.tileTick (s : State) (k : Nat) : State :=
  let p := (s.core k).tphase
  let s := s.modCore k (fun c => { c with tphase := if p < 10 then p + 1 else 0 })
  let s := (((s.tilePart k 0 p).tilePart k 1 p).tilePart k 2 p).tilePart k 3 p
  if p = 6 then s.arithDue k else s

/-- Perform `n` phases. -/
def State.tileTicks (s : State) (k : Nat) : Nat → State
  | 0 => s
  | n + 1 => (s.tileTick k).tileTicks k n

/-- How many phases lie before phase `p` of array `a`'s cycle `c`; none when it is past. -/
def State.tileUntil (s : State) (k a c p : Nat) : Option Nat :=
  let here := 11 * (s.arr k a).cycle + (s.core k).tphase
  let there := 11 * c + p
  if there < here then none else some (there - here)

/-- An array event in local cycle `c`: all that is due before its phase is performed, then the phase itself. An event of a cycle already past, or of a frozen or absent array, has happened or cannot happen: nothing changes (logs 3, 8; R61). -/
def State.tileEvent (s : State) (k a c p : Nat) : State :=
  if s.frozen (.tcu k a) then s
  else match s.tileUntil k a c p with
  | none => s
  | some n => (s.tileTicks k n).tileTick k

end Sys2Proof.Machine
end

