-- ==== Sys2Proof/Machine/Ops.lean ====
section
/-! DEFINITION. Taking an exception and returning from one; the double and the third fault; the block reset of a core (R349 to R362). -/
namespace Sys2Proof.Machine

/-- The word a core's frame register offset holds, as two words of a pair. -/
def State.pair (s : State) (f : FrameId) (off : Nat) : Nat := s.reg f off + 2 ^ 32 * s.reg f (off + 4)

/-- CORE_STKDEPTH (R123). -/
def State.stkDepth (s : State) (k : Nat) : Nat := (s.core k).istk.length + 256 * (s.core k).vstk.length

/-- CORE_CTX (R380). -/
def State.ctxWord (s : State) (k : Nat) : Nat :=
  match s.coreCtx k with
  | some c => c + 256
  | none => 0

/-- Whether the deadlock detector has frozen the context of a core (R334). -/
def State.ctxFrozen (s : State) (k : Nat) : Bool :=
  match s.coreCtx k with
  | some c => s.sync.frozen.contains c
  | none => false

/-- CORE_STAT as read: STOPPED also shows a freeze, by the detector or by an error (R61, R380). -/
def State.statWord (s : State) (k : Nat) : Nat := if s.ctxFrozen k || s.frozen (.cu k) then s.stat k ||| 16 else s.stat k

/-! ## Pending causes (R350, R351) -/

/-- INT_TIMER's condition (R381). -/
def State.timerDue (s : State) (k : Nat) : Bool := decide (s.pair (.cu k) 0x530 ≤ (s.copyOf (regionOf k)).toNat)

/-- INT_DOORBELL's condition (R382). -/
def State.doorbell (s : State) (k : Nat) : Bool := tget (s.frame (.cu k)).flags 0x254 0 != 0

/-- CORE_PENDING (R350). -/
def State.pendingMask (s : State) (k : Nat) : Nat :=
  ((s.core k).pend.foldl (fun m c => m ||| 2 ^ c.code) 0) ||| (if s.timerDue k then 2 ^ 32 else 0) ||| (if s.doorbell k then 2 ^ 33 else 0)

/-- The pending imprecise cause that governs a boundary: unmasked, lowest code (R351 item 1). An arithmetic cause of precise mode waits until its tile instruction has completed (R352, R354). -/
def State.pendCauseNow (s : State) (k : Nat) : Option Cause :=
  (s.core k).pend.find? (fun c => decide (c.code < 32) && !s.masked k c.code && !(c.precise && (s.core k).tileHold && !s.tilesQuiet k))

/-- The interrupt that governs a boundary, whatever IHOLD and DF hold back: unmasked, lowest code (R351 item 2). -/
def State.interruptNow (s : State) (k : Nat) : Option Nat :=
  [32, 33, 34].find? (fun c => (s.pendingMask k).testBit c && !s.masked k c)

/-- The cause taken at a boundary before the next instruction issues (R351 items 1 and 2, R361). -/
def State.boundaryCause (s : State) (k : Nat) : Option Cause :=
  match s.pendCauseNow k with
  | some c => some c
  | none => if s.ihold k || s.inDf k then none else (s.interruptNow k).map (fun c => { code := c })

/-- A cause that is taken stops being pending (R350). -/
def State.unpend (s : State) (k code : Nat) : State :=
  s.modCore k (fun c => { c with pend := c.pend.filter (fun x => x.code != code) })

/-! ## The frame and the dead-letter box (R357, R360) -/

/-- The CAUSE word (R357). -/
def Cause.word (c : Cause) : Nat := c.code + 64 * b2n c.precise + 256 * c.syscall.toNat

/-- The 128 bytes of an entry frame. -/
def State.frameBytes (s : State) (k : Nat) (pc : W64) (causeWord : Nat) (addr info : W64) : List Byte :=
  u64 pc.toNat ++ u32 (s.statWord k) ++ u32 causeWord ++ u64 addr.toNat ++ u64 info.toNat
    ++ u64 (s.copyOf (regionOf k)).toNat ++ u32 (s.reg (.cu k) 0x404) ++ u32 (s.reg (.cu k) 0x414)
    ++ u32 (s.stkDepth k) ++ u32 (s.preds k) ++ u32 (s.vlen k) ++ u32 (s.ctxWord k) ++ List.replicate 64 0

/-- CORE_KSP. -/
def State.ksp (s : State) (k : Nat) : Nat := s.reg (.cu k) 0x528

/-- The dead-letter box (R126). -/
def boxAt : Nat := 0x7FF00

/-- Why a pointer is invalid, in the reasons of R360; none when it is valid (R355 step 1). -/
def State.kspReason (s : State) (k : Nat) : Option Nat :=
  let p := s.ksp k
  if p % 128 ≠ 0 then some 1
  else if boxAt < p ∨ p < 128 then some 2
  else if p - 128 < s.reg (.cu k) 0x52C then some 3
  else none

/-- A handler address: EVEC or DFVEC (R381). -/
def State.vector (s : State) (k off : Nat) : W64 := BitVec.ofNat 64 (s.pair (.cu k) off)

/-- Set the PC. -/
def State.setPc (s : State) (k : Nat) (pc : W64) : State := s.modCore k (fun c => { c with pc := pc })

/-- A wait in progress ends without completing: its entry is withdrawn (R316). -/
def State.cancelWait (s : State) (k : Nat) (h : k < 128) : State :=
  (s.dropWait (.core ⟨k, h⟩)).modCore k (fun c => { c with waiting := none })

/-- The double fault: the box, the status, the vector (R359, R360). -/
def State.doubleFault (s : State) (k : Nat) (frame : List Byte) (reason second : Nat) : State :=
  let count := s.dmemNat k (boxAt + 0x8C) 4 + 1
  let trailer := u32 reason ++ u32 second ++ u32 (s.ksp k) ++ u32 count ++ u64 (s.copyOf (regionOf k)).toNat ++ List.replicate 40 0
  let s := s.dmemWrite k boxAt (frame ++ trailer)
  let s := s.setStat k (s.stat k ||| 7)
  (s.setPc k (s.vector k 0x520)).modCore k (fun c => { c with entering := true })

/-! ## Block reset of a core (R362, R291, R303, R188, R312) -/

/-- The frames of a core. -/
def coreFrames (k : Nat) : List FrameId := [.cu k, .tcu k 0, .tcu k 1, .tcu k 2, .tcu k 3, .ae k, .mc k]

/-- The wait entries of a core: its own and its descriptors'. -/
def ownsWait (k : Nat) : Waiter → Bool
  | .core j => j.val == k
  | .desc j _ => j.val == k
  | _ => false

/-- A core's control unit after block reset: core data memory and its poison stay. -/
def Core.reset (c : Core) : Core := { dmem := c.dmem, dpoison := c.dpoison, loan := c.loan }

/-- A core's access engine after block reset; writes already issued go on to their stack controllers, write-backs of evicted sectors among them (log 40). -/
def Ae.reset (a : Ae) : Ae :=
  { writes := a.writes.map (fun w => { w with desc := none, tile := none })
    frame := a.frame.filter Req.evict, again := a.again.filter Req.evict, nextIssue := a.nextIssue }

/-- A core's memory cache after block reset: the lines stay, the tray is empty. -/
def MemCache.reset (c : MemCache) : MemCache := { lines := c.lines, ptr := c.ptr }

/-- An array after block reset. -/
def TileArray.reset (x : TileArray) : TileArray := { cycle := x.cycle }

/-- Reset values for a list of frames. -/
def State.resetFrames (s : State) : List FrameId → State
  | [] => s
  | f :: r => (s.resetFrame f).resetFrames r

/-- Reset a core's four arrays. -/
def State.resetArrays (s : State) (k : Nat) : List Nat → State
  | [] => s
  | a :: r => (s.modArr k a TileArray.reset).resetArrays k r

/-- Block reset of a core: it is left stopped (CORE_STAT's reset value). -/
def State.blockResetCore (s : State) (k : Nat) : State :=
  let s := s.resetFrames (coreFrames k)
  let s := s.modCore k Core.reset
  let s := s.modAe k Ae.reset
  let s := s.modCache k MemCache.reset
  let s := s.resetArrays k [0, 1, 2, 3]
  { s with sync := { s.sync with
      waits := s.sync.waits.filter (fun e => !ownsWait k e.who)
      ports := tset s.sync.ports k [] } }

/-! ## Entry, third fault, return (R355 to R361, R358) -/

/-- The third fault (R361): `pc` is the address of the instruction at which it arose. -/
def State.thirdFault (s : State) (k : Nat) (c : Cause) (pc : W64) : State :=
  let count := s.dmemNat k (boxAt + 0xCC) 4 + 1
  let s := s.dmemWrite k (boxAt + 0xC0)
    (u64 pc.toNat ++ u32 c.word ++ u32 count ++ u64 c.addr.toNat ++ u64 (s.copyOf (regionOf k)).toNat)
  let payload := u64 (s.dmemNat k boxAt 8) ++ u64 pc.toNat ++ u16 k ++ u8 (s.dmemNat k (boxAt + 0x80) 4)
  let ctx := s.ctxByte k
  ((s.blockResetCore k).modCore k (fun c => { c with stopBy := 1 })).event (.cu k) 0x106 ctx 0 payload

/-- TAKING AN EXCEPTION (R355, R359, R361): the core enters the supervisor for `c` with the saved PC `pc`; with DF set any cause but an interrupt is a third fault, and an invalid pointer makes it a double fault. -/
def State.enter (s : State) (k : Nat) (c : Cause) (pc : W64) : State :=
  if s.inDf k && decide (c.code < 32) then s.thirdFault k c pc
  else
    let frame := s.frameBytes k pc c.word c.addr c.info
    match s.kspReason k with
    | some r => s.doubleFault k frame r 0
    | none =>
      let p := s.ksp k - 128
      let s := (s.dmemWrite k p frame).setReg (.cu k) 0x528 p
      let s := s.setStat k (s.stat k ||| 3)
      (s.setPc k (s.vector k 0x518)).modCore k (fun c => { c with entering := true })

/-- A cause raised by the decode of the first word of a handler (R356, R359): the frame already written goes to the box, and KSP stands as before the entry. With DF set it is a third fault (R361). -/
def State.enteringFault (s : State) (k : Nat) (c : Cause) (pc : W64) : State :=
  if s.inDf k then s.thirdFault k c pc
  else
    let frame := s.dmemBytes k (s.ksp k) 128
    (s.setReg (.cu k) 0x528 (s.ksp k + 128)).doubleFault k frame 4 c.code

/-- A precise fault of the instruction about to issue. -/
def State.precise (s : State) (k : Nat) (c : Cause) (pc : W64) : State := s.enter k { c with precise := true } pc

/-- An instruction address: a multiple of 4 (R131; log 41). -/
def codeAddr (v : W64) : W64 := v &&& ~~~(3 : W64)

/-- RETURN FROM AN EXCEPTION (R358): PC and CORE_STAT from the frame at KSP, or from the box while DF is set; an invalid KSP is a double fault with reason 5. -/
def State.retx (s : State) (k : Nat) : State :=
  let restore := fun (s : State) (a : Nat) =>
    let pc := codeAddr (BitVec.ofNat 64 (s.dmemNat k a 8))
    let st := s.dmemNat k (a + 8) 4 % 16
    (s.setStat k (st ||| (s.stat k &&& 16))).setPc k pc
  if s.inDf k then restore s boxAt
  else
    match s.kspReason k with
    | some _ => s.doubleFault k (s.frameBytes k (s.core k).pc 0 0 0) 5 0
    | none => (restore s (s.ksp k)).setReg (.cu k) 0x528 (s.ksp k + 128)

/-- Take what a boundary takes before the next instruction issues; none when the boundary takes nothing (R351). -/
def State.takeBoundary (s : State) (k : Nat) (h : k < 128) : Option State :=
  match s.boundaryCause k with
  | none => none
  | some c =>
    let s := (s.cancelWait k h).unpend k c.code
    some (s.enter k c (s.core k).pc)

/-- Whether a core's control unit can come to an instruction boundary at all: present, not stopped, not frozen by a parity error or by the detector, not inside a chunk or a full maintenance operation (R61, R174, R293, R334, R363). -/
def State.atBoundary (s : State) (k : Nat) : Bool :=
  let held := match (s.core k).waiting with
    | some ⟨.maint _, _, _, _, _⟩ => true
    | _ => false
  s.pwr.ready && s.siteOf k != 0xFF && !s.stopped k && !s.frozen (.cu k) && !s.ctxFrozen k && !held && (s.core k).resum.isNone

end Sys2Proof.Machine
end

