-- ==== Sys2Proof/Machine/RegOps.lean ====
section
/-! DEFINITION. What register writes set off in the units: restarting descriptors, flushing queues, maintenance operations, launch rings, link enables, freezes and quarantine (R284, R293, R307, R389, R437, R457, R60, R35). -/
namespace Sys2Proof.Machine

/-! ## Access engine and cache -/

/-- RESTART of a fault record (R284). -/
def State.aeRestart (s : State) (k n : Nat) (w : Nat) : State :=
  let r := tget (s.ae k).frecs n {}
  if !r.valid then s
  else if w.testBit 30 then
    s.modAe k (fun a => { a with
      frecs := tset a.frecs n { r with valid := false }
      descs := (match a.descs.find? (fun e => e.1 == n) with
        | some (_, d) => tset a.descs n { d with stopped := false, aborted := true }
        | none => a.descs)
      frame := a.frame.filter (fun q => q.desc != n || decide (q.row < r.row.toNat))
      again := a.again.filter (fun q => q.desc != n || decide (q.row < r.row.toNat)) })
  else if w.testBit 31 then
    s.modAe k (fun a => { a with
      frecs := tset a.frecs n { r with valid := false }
      descs := (match a.descs.find? (fun e => e.1 == n) with
        | some (_, d) => tset a.descs n { d with stopped := false, elem := min (w % 16) r.element.toNat }
        | none => a.descs) })
  else s

/-- AE_QFLUSH (R307). -/
def State.qflush (s : State) (k v : Nat) : State :=
  s.modAe k (fun a => { a with queues := tdelWhere a.queues (fun q => v.testBit q && decide (q < 16)) })

/-- A fill in flight is discarded on arrival for the sectors `p` names (R298). -/
def Req.unfill (r : Req) (p : Nat → Bool) : Req :=
  if r.fill.any p then { r with fill := r.fill.filter (fun n => !p n), dropped := true } else r

/-- Discard every line: the sectors in flight are discarded on arrival, the tray is emptied (R292, R298). -/
def State.invalidateAll (s : State) (k : Nat) : State :=
  let s := s.emptyTray k
  let s := s.modCache k (fun c => { c with lines := [], ptr := c.ptr })
  s.modAe k (fun a => { a with slots := a.slots.map (fun r => r.unfill (fun _ => true)) })

/-- The valid sectors of the cache. -/
def MemCache.held (c : MemCache) : List Nat :=
  c.lines.flatMap (fun e => (List.range 4).filterMap (fun i =>
    if (e.2.sectors.getD i {}).valid then some (lineBase e.1.1 e.2.tag / 128 + i) else none))

/-- Write every dirty sector back and mark it clean; tray entries and prefetches of the sectors cleaned go (R292, R298). -/
def State.cleanAll (s : State) (k : Nat) : State :=
  let wb := (s.cache k).lines.flatMap (fun e => (writeBacks e.1.1 e.2).map (fun r => { r with maint := 1 }))
  let secs := (s.cache k).held
  let s := s.dropTray k false true (fun n => secs.contains n)
  let s := s.modCache k (fun c => { c with lines := c.lines.map (fun e => (e.1, { e.2 with sectors := e.2.sectors.map (fun x => { x with dirty := false }) })) })
  s.toFrame k wb

/-- TRAYINV drops every tray entry; a prefetch in flight lands (R296). -/
def State.trayInv (s : State) (k : Nat) : State := s.dropTray k true false (fun _ => true)

/-- A full maintenance operation starts: 1 MCINV.ALL, 2 MCCLN.ALL, 3 TRAYINV (R293, R309). Lookups wait while it runs, so its effect on the lines is whole when the next lookup comes. -/
def State.maintStart (s : State) (k op : Nat) : State :=
  match op with
  | 1 => s.invalidateAll k
  | 2 => s.cleanAll k
  | _ => s.trayInv k

/-- Request a full operation; it waits while another runs, in arrival order (R293). -/
def State.maintRequest (s : State) (k op : Nat) (byInstr : Bool) : State :=
  let busy := !(s.cache k).maint.isEmpty
  let s := s.modCache k (fun c => { c with maint := c.maint ++ [⟨op, byInstr, !busy⟩] })
  if busy then s else s.maintStart k op

/-- Reload the 256 fold generators (R109). -/
def State.foldReload (s : State) (k seed : Nat) : State :=
  s.modCore k (fun c => { c with gens := (List.range 256).map (fun l => BitVec.ofNat 32 (seedLane seed l)) })

/-- A core's fold generators: those of seed 0 when none were loaded since block reset. -/
def State.gensOf (s : State) (k : Nat) : List W32 :=
  if (s.core k).gens.isEmpty then (List.range 256).map (fun l => BitVec.ofNat 32 (seedLane 0 l)) else (s.core k).gens

/-! ## Slacks (R500, R501) -/

/-- The sites that carry a logical core (R17). -/
def Region.active (r : Region) : Nat := r.sites.foldl (fun m x => if x < 17 then m ||| 2 ^ x else m) 0

/-- The worst slack among the active sites and its site. -/
def State.worstSlack (s : State) (d : Nat) : Nat × Nat :=
  let x := tget s.csvs d {}
  ((List.range 17).filter (fun i => (s.region d).active.testBit i)).foldl
    (fun w i => if tget x.slacks i 0x3FF < w.1 then (tget x.slacks i 0x3FF, i) else w) (0x3FF, 0)

/-- A region's operating time since the last module reset in ns: its clock ran (R501). -/
def State.operated (s : State) (d : Nat) : Nat :=
  let x := tget s.csvs d {}
  x.stopped.getD s.pm.ran - x.paused

/-- Its operating minutes (R502, R512). -/
def State.opMinutesOf (s : State) (d : Nat) : Nat := (tget s.csvs d {}).minutes + s.operated d / 60000000000

/-- The region's clock runs again. -/
def State.clockRuns (s : State) (d : Nat) : State :=
  { s with csvs := tmod s.csvs d {} (fun x => match x.stopped with
      | some t => { x with stopped := none, paused := x.paused + (s.pm.ran - t) }
      | none => x) }

/-- The worst measured slack against CSV_THRESH: below it, the event and a re-plan (R501). DESIGN CHOICE (log 137): the request stands until the re-plan, and CSV_CTRL.REPLAN reads 1 with it although nobody wrote it. -/
def State.marginCheck (s : State) (d : Nat) : State :=
  let w := s.worstSlack d
  if !(tget s.csvs d {}).slacks.isEmpty && decide (w.1 < s.reg (.csv d) 8 % 256) then
    let s := s.flagEvent (.csv d) 0 0 0x209 0xFF (u16 w.1 ++ u8 w.2)
    { s with csvs := tmod s.csvs d {} (fun x => { x with request := true }) }
  else s

/-! ## Rings (R386 to R390, R424, R535) -/

/-- How many rings of an update engine or a collective engine are enabled. -/
def State.enabledRings (s : State) (f : FrameId) : Nat :=
  ((List.range 64).filter (fun c => (s.reg f (0x408 + 16 * c)).testBit 31)).length

/-- The waiter of a ring. -/
def ringWaiter (f : FrameId) (c : Nat) (hc : c < 64) : Option Waiter :=
  match f with
  | .upe d j => if h : 2 * d + j < 16 then some (.upe ⟨2 * d + j, h⟩ ⟨c, hc⟩) else none
  | .ce d => if h : d < 8 then some (.ce ⟨d, h⟩ ⟨c, hc⟩) else none
  | _ => none

/-- The waiter whose entry a ring holds now, a wait for a descriptor: none while the running descriptor or stage waits on its WSYNC (R389). -/
def State.ringWaits (s : State) (f : FrameId) (c : Nat) (hc : c < 64) : Option Waiter :=
  match ringWaiter f c hc with
  | some (.upe e x) => if s.upes.any (fun u => u.1 == (e.val, x.val)) then none else some (.upe e x)
  | some (.ce d x) => if (tget s.links.stages (d.val, x.val) []).any (fun g => g.phase == 0) then none else some (.ce d x)
  | _ => none

/-- Whether every byte of a physical range lies in granules for which `p` holds, below the top of memory. -/
def granulesAll (p : Nat → Bool) (pa n : Nat) : Bool :=
  decide (pa + n ≤ memTop) && (List.range ((pa + n - 1) / 2 ^ 30 - pa / 2 ^ 30 + 1)).all (fun g => p (g + pa / 2 ^ 30))

/-- Whether a physical range lies in granules lent to a context. -/
def State.rangeLent (s : State) (c pa n : Nat) : Bool := granulesAll (fun g => s.granuleLent g c) pa n

/-! ## Update engines: who is served next (R378, R413, R422) -/

/-- The frame of engine `e`. -/
def upeFrame (e : Nat) : FrameId := .upe (e / 2) (e % 2)
/-- The frame of its stack controller. -/
def stkFrame (e : Nat) : FrameId := .stk (e / 2) (e % 2)
/-- Whether an engine works at all: it and its block are not frozen, its region is not quarantined (R61, R35). -/
def State.upeUp (s : State) (e : Nat) : Bool :=
  s.pwr.ready && !s.frozen (upeFrame e) && !s.frozen (stkFrame e) && !(s.region (e / 2)).fenced
/-- Whether it starts requests and chunks for a context: the detector has not frozen that (R334). -/
def State.upeRuns (s : State) (e c : Nat) : Bool := s.upeUp e && !s.sync.frozen.contains c
/-- CTRL of a layer descriptor. -/
def layerCtrl (w : List Byte) : Nat := fieldAt w 0 4
/-- KIND. -/
def layerKind (w : List Byte) : Nat := layerCtrl w % 16
/-- Whether a descriptor has a chunk to work on. -/
def UpeRun.hasWork (r : UpeRun) : Bool :=
  match r.phase with
  | 1 => true
  | 2 => true
  | 3 => true
  | 4 => true
  | 5 => (layerKind r.words == 3 && r.remote == 0) || (layerKind r.words == 5 && r.remote == 5)
  | _ => false

/-- A context's share of an engine in sixteenths, as the catalogue holds it now (R378). -/
def State.upeShare (s : State) (e c : Nat) : Nat := tget s.cat.upeShares (c, e) (if c = 0 then 16 else 0)

/-- The round an engine is in: a new one, with the present shares, when 16 turns are used or 10 µs are over (R378, R413; log 81). -/
def State.turnsOf (s : State) (e : Nat) : Turns :=
  let t := tget s.turns e {}
  if t.served.isEmpty || decide (16 ≤ t.served.length) || decide (t.began + 10000 ≤ s.pm.ran) then
    { t with served := [], shares := (List.range 64).map (s.upeShare e), began := s.pm.ran }
  else t

/-- Whether the engine serves context `b` before `c`: while one is still short of its share of the round, that one; of turns left over, the one served least for its share; a context with share 0 last (R378, R413; log 81). -/
def Turns.servedBefore (t : Turns) (b c : Nat) : Bool :=
  let sb := t.shares.getD b 0
  let sc := t.shares.getD c 0
  let ub := t.served.count b
  let uc := t.served.count c
  let ob := decide (ub < sb)
  let oc := decide (uc < sc)
  if ob != oc then ob
  else if ob then false
  else if sc = 0 then sb != 0 || decide (ub < uc)
  else sb != 0 && decide (ub * sc < uc * sb)

/-- Whether the engine's next turn may be context `c`'s: no other context with work comes before it (R413). -/
def State.turnOpen (s : State) (e c : Nat) : Bool :=
  s.upes.all (fun x => x.1.1 != e || x.1.2 == c || (x.2.results.isNone && (!(x.2.hasWork && s.upeRuns e x.1.2) || !(s.turnsOf e).servedBefore x.1.2 c)))

/-- A turn of the round of 16 is used (R413). -/
def State.takeTurn (s : State) (e c : Nat) : State :=
  let t := s.turnsOf e
  { s with turns := tset s.turns e { t with served := c :: t.served } }

/-- UPE_STATE (R422): a rollback under way; else the chunk in progress, the one whose turn it is. A chunk of CKPT_LAYER or RESTORE is of no pass (log 94). -/
def State.upeState (s : State) (e : Nat) : Nat :=
  let word := fun (c pass chunk : Nat) => c + pass * 64 + chunk % 2 ^ 21 * 2 ^ 11
  match (tget s.turns e {}).rolling with
  | some (c, n) => word c 4 n
  | none =>
    match s.upes.find? (fun x => x.1.1 == e && x.2.hasWork && s.upeRuns e x.1.2 && s.turnOpen e x.1.2) with
    | some ((_, c), r) => word c (match r.phase with | 1 => 1 | 2 => 1 | 3 => 2 | 4 => 3 | _ => 0) r.chunk
    | none => 0

/-- A ring configuration write of an update engine or a collective engine (R389, R424): none when it is refused. -/
def State.ringCfg (s : State) (f : FrameId) (off v : Nat) : Option State :=
  let c := (off - 0x408) / 16
  let old := s.reg f off
  let v := v - bits v 12 4 * 4096 + clampNat (bits v 12 4) 4 12 * 4096
  if v.testBit 31 && !old.testBit 31 && decide (16 ≤ s.enabledRings f) then none
  else
    let s := s.setReg f off v
    if old.testBit 31 && !v.testBit 31 then
      if h : c < 64 then
        match s.ringWaits f c h with
        | some w => some (s.dropWait w)
        | none => some s
      else some s
    else some s

/-- An event ring configuration write (R535): none when it is refused. -/
def State.evtRingCfg (s : State) (off v : Nat) : Option State :=
  let f := (off - 0x108) / 16
  let old := s.reg .revt off
  let lg := clampNat (bits v 0 5) 6 16
  let v := (if v.testBit 31 then 2 ^ 31 else 0) + lg
  if v.testBit 31 && !old.testBit 31 then
    let addr := s.reg .revt (off - 8) + 2 ^ 32 * s.reg .revt (off - 4)
    let n := 0x80 + 64 * 2 ^ lg
    let okay := if f = 0 then decide (addr + n ≤ memTop) else s.rangeLent f addr n
    if okay then
      let r := (s.setReg .revt off v).readPhys .revt 0xFF (addr + 0x40) 4
      let s := r.st.unblocked s
      let ring : RingSt := { addr := addr, log2 := lg, producer := 0, lost := 0, consumer := BitVec.ofNat 32 (leNat r.bytes), signalled := false }
      some { s with ev := { s.ev with rings := tset s.ev.rings f ring } }
    else none
  else
    let s := s.setReg .revt off v
    if v.testBit 31 then some s else some { s with ev := { s.ev with rings := tdel s.ev.rings f } }

/-! ## Links (R435, R437, R438, R457) -/

/-- A link port. -/
def State.lport (s : State) (p : Nat) : Port := tget s.links.ports p {}
/-- Replace a link port. -/
def State.setLport (s : State) (p : Nat) (x : Port) : State := { s with links := { s.links with ports := tset s.links.ports p x } }
/-- Change a link port. -/
def State.modLport (s : State) (p : Nat) (f : Port → Port) : State := s.setLport p (f (s.lport p))

/-- The ports of a mask that are UP (R438, R442). -/
def State.upPorts (s : State) (mask : Nat) : List Nat := (List.range 12).filter (fun p => mask.testBit p && (s.lport p).state == 2)

/-- Queue a message on a port. -/
def State.enqueue (s : State) (p : Nat) (m : TxMsg) : State := s.modLport p (fun x => { x with tx := x.tx ++ [m] })

/-- Something of a context moved in a region (R333). -/
def State.moved (s : State) (d c : Nat) : State := { s with active := tset s.active (d, c) (s.copyOf d) }

/-- The tag of a queued request (R430). -/
def TxMsg.tag (m : TxMsg) : Option Nat :=
  if m.vc = 0 ∨ m.vc = 2 then some (fieldAt m.bytes 0x18 4) else none

/-- A port begins to send a request: the 10 ms for its answer run from now (R417, R450). -/
def State.stampSent (s : State) (m : TxMsg) : State :=
  match m.tag with
  | none => s
  | some t =>
    let stamp := fun (l : List Outstanding) => l.map (fun o => if o.txn = t then { o with sent := some s.pm.ran } else o)
    { s with
      upes := s.upes.map (fun e => (e.1, { e.2 with outst := stamp e.2.outst }))
      links := { s.links with stages := s.links.stages.map (fun e => (e.1, e.2.map (fun g => { g with outst := stamp g.outst }))) }
      host := { s.host with scans := s.host.scans.map (fun x => { x with outst := stamp x.outst }) } }

/-- A queued request has no port left to go by: a stage it belongs to is LINK_FAILED at once (R442, R450); for any other sender it counts as sent now, without an answer. -/
def State.unsent (s : State) (m : TxMsg) : State :=
  let mine := fun (g : Stage) => g.outst.any (fun o => m.tag == some o.txn)
  let s := s.stampSent m
  { s with links := { s.links with stages := s.links.stages.map (fun e =>
      (e.1, e.2.map (fun g => if mine g then { g with phase := 4, code := 14, detail := 0, outst := [] } else g))) } }

/-- A forwarded record that finds no route, or is refused (R524). -/
def State.forwardLost (s : State) : State := s.setReg .revt 0x804 ((s.reg .revt 0x804 + 1) % 2 ^ 32)

/-- Send the messages of a port that went DOWN on the other ports of their masks; one without an UP port is not sent, and a forwarded record is then lost (R438, R442, R524). -/
def State.requeue (s : State) : List TxMsg → State
  | [] => s
  | m :: r =>
    match s.upPorts m.mask with
    | p :: _ => (s.enqueue p m).requeue r
    | [] => (if fieldAt m.bytes 0 1 % 16 = 7 then s.forwardLost else s.unsent m).requeue r

/-- The shells of a port's lanes when it goes DOWN: no lane is UP or in training, a dropped one stays FAILED (R437, R439; log 57). -/
def State.lanesDown (s : State) (p : Nat) : State :=
  (List.range 8).foldl (fun s l =>
    let v := s.reg (.lane p l) 0
    if v % 8 = 0 ∨ v % 8 = 7 then s else s.setReg (.lane p l) 0 (v - v % 8)) s

/-- A port goes DOWN (R437, R438): its lanes with it, its queue moves to other ports, its replay buffer is lost, its next link-up starts from sequence 0. -/
def State.portDown (s : State) (p : Nat) : State :=
  let q := (s.lport p).tx
  let x := s.lport p
  let s : State := { s with links := { s.links with fec := tdelWhere s.links.fec (fun k => k.1 == p) } }
  (s.setLport p { trainStart := x.trainStart, lastTry := x.lastTry, rx := x.rx }).lanesDown p |>.requeue q

/-- The lost last lane of a port: DOWN, flag and alarm (R437). -/
def State.linkDown (s : State) (p : Nat) : State := (s.portDown p).flagEvent (.port p) 0x10 2 0x108 0xFF []

/-- Training starts from the present postmark, latches LNK_LANEMASK and puts the lanes into DETECT (log 57); ports stay DOWN until SELF_ID (R440, R457). `keep`: a retrain that keeps the replay buffer. -/
def State.startTraining (s : State) (p : Nat) (keep : Bool) : State :=
  if s.links.selfId.isNone then s
  else
    let allow := s.reg (.port p) 8 % 256
    let s := (List.range 8).foldl (fun s l => if allow.testBit l then s.setReg (.lane p l) 0 (s.reg (.lane p l) 0 - s.reg (.lane p l) 0 % 8 + 1) else s) s
    s.modLport p (fun x =>
      { (if keep then x else { tx := x.tx, rx := x.rx, asked := x.asked }) with
          state := 1, lanes := 0, allow := allow, retraining := keep, trainStart := s.pm.ran, lastTry := s.pm.ran })

/-- A write of LNK_CTRL.ENABLE (R457). -/
def State.linkEnable (s : State) (p v : Nat) : State :=
  let old := (s.reg (.port p) 0).testBit 0
  let s := s.setReg (.port p) 0 (v % 2)
  if v.testBit 0 && !old then s.startTraining p false
  else if !v.testBit 0 && old then
    let x := s.lport p
    if x.state = 2 ∧ ¬(x.tx.isEmpty ∧ x.part.isEmpty) then s.setLport p { x with closing := true }
    else s.portDown p
  else s

/-- A full retrain of a port that keeps its replay buffer (R435). -/
def State.retrain (s : State) (p : Nat) : State :=
  if (s.lport p).state = 0 then s.startTraining p false
  else ((s.startTraining p true).modLport p (fun x => { x with naks := 0, naksGot := 0, discarding := false })).raise (.port p) 0x10 1

/-- LTRAIN.RETRAIN of a lane (R435, R459): the whole port retrains, and the bit reads 1 until its training is over (R12). -/
def State.laneRetrain (s : State) (p l : Nat) : State :=
  let s := s.retrain p
  if (s.lport p).state = 1 then s.modLport p (fun x => { x with asked := x.asked ||| 2 ^ l }) else s

/-- The time limit of training state `n` in ns (R439). -/
def laneBudget (n : Nat) : Nat := [0, 5000000, 2000000, 20000000, 15000000, 1000000].getD n 0

/-- The training state a lane is in `t` ns after training began: each state lasts a time within its budget that nothing gives (R439; log 57). -/
def laneStage (p l t start : Nat) : Nat :=
  ((List.range 4).foldl (fun acc i =>
    let due := acc.1 + (Config.laneTime p l (i + 1) start).toNat % (laneBudget (i + 1) + 1)
    (due, if due ≤ t then i + 2 else acc.2)) (0, 1)).2

/-- LNK_LTRAIN as it reads: STATE of a lane in training, RETRAIN while its action runs (R439, R459). -/
def State.laneWord (s : State) (p l : Nat) : Nat :=
  let v := s.reg (.lane p l) 0
  let x := s.lport p
  let st := if x.state = 1 ∧ v % 8 = 1 then laneStage p l (s.pm.ran - x.trainStart) x.trainStart else v % 8
  v - v % 8 + st + b2n (x.asked.testBit l) * 65536

/-! ## Freezes (R35, R60, R61, R526, R528) -/

/-- The level at which a frame's unit freezes, in the rows of R6: 0 cell, 1 block, 2 region. R60 names a cell's, a block's and a region control register only. DESIGN CHOICE (log 113): a region's power, event and sync frames freeze as its control frame does; a memory cache, a collective engine, a lane shell, the conservator's, calibration and perturbation frames and every registrar frame freeze as a cell. -/
def freezeLevel : FrameId → Nat
  | .cu _ => 1
  | .stk _ _ => 1
  | .rctl _ => 2
  | .rpwr _ => 2
  | .evt _ => 2
  | .sync _ => 2
  | _ => 0

/-- The quarantine of a region: its memory is fenced (R35); cause 0 a freeze, 1 a lost clock. -/
def State.quarantine (s : State) (d cause : Nat) : State :=
  if (s.region d).fenced then s
  else (s.setRegion d { s.region d with fenced := true }).event .revt 0x103 0xFF 0 (u8 d ++ u8 cause)

/-- Freeze the unit of a frame; reason 0 parity, 1 an uncorrectable control store. -/
def State.freeze (s : State) (f : FrameId) (reason : Nat) : State :=
  let s := s.modFrame f (fun fr => { fr with frozen := true })
  if freezeLevel f = 2 then s.quarantine (hopOf f) 0
  else
    let ctx := match f with
      | .cu k => s.ctxByte k
      | .tcu k _ => s.ctxByte k
      | .ae k => s.ctxByte k
      | .mc k => s.ctxByte k
      | _ => 0xFF
    s.event f 0x10C ctx 0 (u8 (freezeLevel f) ++ u8 reason)

/-- What follows a parity mismatch found by a read or by the scrubber: once per mismatch (R60). -/
def State.parityFound (s : State) (f : FrameId) (off : Nat) : State :=
  if setHas (s.frame f).reported off then s
  else
    let ev := evtFrame (hopOf f)
    let s := s.modFrame f (fun fr => { fr with reported := setAdd fr.reported off, failed := setAdd fr.failed off })
    let addr := s.bar0 f + off
    let first := !((tget (s.frame ev).flags 0 0).getLsbD 0)
    let s := if first then s.setReg ev 4 addr else s.setReg ev 8 (s.reg ev 8 + 1)
    let s := s.flagEvent ev 0 0 0x101 0xFF (u32 addr)
    s.freeze f 0

end Sys2Proof.Machine
end

