-- ==== Sys2Proof/Machine/RegAccess.lean ====
section
/-! DEFINITION. Register accesses: where an offset leads, what a read returns, what a write does through each view, how a bus error reaches its agent (R46 to R72, R464, R494, R537, R538, R549). -/
namespace Sys2Proof.Machine

/-! ## Where an offset leads -/

/-- What answers an access. -/
inductive Target where
  | frame (f : FrameId) (off view : Nat)
  | nothing
  | poweredDown
  deriving DecidableEq, Repr

/-- The core a site of a region carries (R16). -/
def State.coreAt (s : State) (d site : Nat) : Option Nat :=
  ((List.range 16).find? (fun l => (s.region d).sites.getD l 0xFF == site)).map (fun l => 16 * d + l)

/-- A frame of a region by its offset (R538). -/
def State.regionFrame (s : State) (d o : Nat) : Option (Option FrameId) :=
  if o < 0x4000 then some (some (.rctl d))
  else if o < 0x8000 then some (some (.rpwr d))
  else if o < 0xC000 then some (some (.evt d))
  else if 0x100000 ≤ o ∧ o < 0x540000 then
    let r := (o - 0x100000) % 0x40000
    let pick := fun (g : Nat → FrameId) => match s.coreAt d ((o - 0x100000) / 0x40000) with
      | some k => some (some (g k))
      | none => some none
    if r < 0x4000 then pick .cu
    else if 0x10000 ≤ r ∧ r < 0x20000 then pick (fun k => .tcu k ((r - 0x10000) / 0x4000))
    else if 0x20000 ≤ r ∧ r < 0x24000 then pick .ae
    else if 0x24000 ≤ r ∧ r < 0x28000 then pick .mc
    else none
  else if 0x800000 ≤ o ∧ o < 0x820000 then
    let j := (o - 0x800000) / 0x10000
    let r := (o - 0x800000) % 0x10000
    if r < 0x4000 then some (some (.stk d j)) else if 0x8000 ≤ r ∧ r < 0xC000 then some (some (.upe d j)) else none
  else if 0xA00000 ≤ o ∧ o < 0xA80000 then
    match portAt d ((o - 0xA00000) / 0x40000) with
    | none => none
    | some p =>
      let r := (o - 0xA00000) % 0x40000
      if r < 0x4000 then some (some (.port p)) else if r < 0x24000 then some (some (.lane p (r / 0x4000 - 1))) else none
  else if 0xA80000 ≤ o ∧ o < 0xA84000 then some (some (.ce d))
  else if 0xC00000 ≤ o ∧ o < 0xC04000 then some (some (.sync d))
  else if 0xE00000 ≤ o ∧ o < 0xE04000 then some (some (.ptb d))
  else if 0xE04000 ≤ o ∧ o < 0xE08000 then some (some (.csv d))
  else if 0xE08000 ≤ o ∧ o < 0xE0C000 then some (some (.csvCal d))
  else none

/-- The physical function's BAR0 (R537). Until MODULE_READY the region frames are powered-down domains (R509). -/
def State.pfTarget (s : State) (o : Nat) : Target :=
  let at_ := fun (f : FrameId) => Target.frame f (o % 0x1000) (o / 0x1000 % 4)
  if o < 0x4000 then at_ (.func 0)
  else if o < 0x8000 then at_ (.lb 0)
  else if o < 0xC000 then at_ .mpwr
  else if o < 0x10000 then at_ .revt
  else if 0x100000 ≤ o ∧ o < 0x104000 then at_ .srm
  else if 0x104000 ≤ o ∧ o < 0x108000 then at_ .srmCal
  else if 0x1000000 ≤ o ∧ o < 0x9000000 then
    if !s.pwr.ready then .poweredDown
    else match s.regionFrame (o / 0x1000000 - 1) (o % 0x1000000) with
      | some (some f) => at_ f
      | some none => .poweredDown
      | none => .nothing
  else .nothing

/-- The BAR0 of virtual function `c` (R464, R549): a core window only while the core is lent to context `c`, and of the writes only CORE_DOORBELL. -/
def State.vfTarget (s : State) (c o : Nat) (wr : Bool) : Target :=
  if o < 0x4000 then .frame (.func c) (o % 0x1000) (o / 0x1000)
  else if o < 0x8000 then .frame (.lb c) (o % 0x1000) (o / 0x1000 - 4)
  else if 0x100000 ≤ o ∧ o < 0x300000 then
    let k := (o - 0x100000) / 0x4000
    if !s.pwr.ready then .poweredDown
    else if s.coreCtx k ≠ some c then .nothing
    else if wr && o % 0x4000 != 0x538 then .nothing
    else .frame (.cu k) (o % 0x1000) (o / 0x1000 % 4)
  else .nothing

/-- Whether a frame belongs to a core's own block (R69). -/
def ownFrame (k : Nat) : FrameId → Bool
  | .cu j => j == k
  | .tcu j _ => j == k
  | .ae j => j == k
  | .mc j => j == k
  | _ => false

/-- Where an agent's access leads (R49: offsets are multiples of 4). -/
def State.target (s : State) (ag : Agent) (o : Nat) (wr : Bool) : Target :=
  if o % 4 ≠ 0 then .nothing
  else match ag with
  | .host fn => if fn.val = 0 then s.pfTarget o else if fn.val ≤ s.host.vfs then s.vfTarget fn.val o wr else .nothing
  | .mgmt => s.pfTarget o
  | .core k =>
    match s.pfTarget o with
    | .frame f off view => if ownFrame k.val f then .frame f off view else .nothing
    | t => t

/-! ## Reads -/

/-- Bits of a Boolean at a place. -/
def flagAt (b : Bool) (n : Nat) : Nat := if b then 2 ^ n else 0

/-- Whether a docket of `v` is accepted and has no reply yet (R473, R481). -/
def State.docketBusy (s : State) (v : Via) : Bool := s.host.dockets.any (fun d => d.via == v)
/-- Whether a reply waits. -/
def State.replyReady (s : State) (v : Via) : Bool := s.host.replies.any (fun e => e.1 == v)

/-- The letterbox of function `c` as a docket source. -/
def viaLb (c : Nat) : Via := if h : c < 64 then .lb ⟨c, h⟩ else .smb


/-- TCU_STATE (R231). -/
def State.tcuState (s : State) (k a : Nat) : Nat :=
  let x := s.arr k a
  packBits ((List.range 10).map (fun t => (x.store t).full)) + flagAt x.wActive 10 + flagAt x.wLoaded 11
    + x.cmds.length % 32 * 2 ^ 12 + (match x.ramp with | some r => r.step % 8 * 2 ^ 17 + 2 ^ 20 | none => 0)
    + flagAt x.feeding.isSome 21 + flagAt x.weight.isSome 22 + flagAt x.drain.isSome 23 + flagAt x.port.isSome 24

/-- A word of a fault record: 0 INFO, 1 ROW, 2 VA_LO, 3 VA_HI (R281). -/
def FaultRec.word (r : FaultRec) (n : Nat) : Nat :=
  match n with
  | 0 => b2n r.valid + r.cause.toNat * 2 + flagAt r.gather 4 + flagAt r.index 5 + r.element.toNat * 64 + r.vmask.toNat * 1024
  | 1 => r.row.toNat
  | 2 => r.va.toNat % 2 ^ 32
  | _ => r.va.toNat / 2 ^ 32

/-- The fault record of a descriptor. -/
def State.frec (s : State) (k n : Nat) : FaultRec := tget (s.ae k).frecs n {}

/-- Whether a region judges a context blocked and quiet (R332, R333): every core of it there waits in one of the listed ways or is frozen by the detector. -/
def blockedKind : WaitKind → Bool
  | .sync _ => true
  | .vqpop => true
  | .vqpush => true
  | .descriptors => true
  | .tquiesce => true
  | .commandQueue => true
  | .aepost => true
  | _ => false

/-- The cores of a context in a region. -/
def State.coresOf (s : State) (d c : Nat) : List Nat := ((List.range 16).map (· + 16 * d)).filter (fun k => s.coreCtx k == some c)

/-- Since when a core is blocked; none when it is not. -/
def State.blockedSince (s : State) (k : Nat) : Option W64 :=
  match (s.core k).loan, (s.core k).waiting with
  | none, some w => if blockedKind w.kind then some w.since else none
  | _, _ => none

/-- The present unbroken span of a region for a context (R334): since when all its cores there have been blocked and the region quiet. -/
def State.spanStart (s : State) (d c : Nat) : Option W64 :=
  let ks := s.coresOf d c
  if ks.isEmpty then none
  else if s.sync.frozen.contains c then some (tget s.active (d, c) 0)
  else
    (ks.map s.blockedSince).foldl (fun m x => match m, x with
      | some a, some b => some (if a.toNat ≤ b.toNat then b else a)
      | _, _ => none) (some (tget s.active (d, c) 0))

/-- SYNC_DLSTATE (R348). -/
def State.dlState (s : State) (d : Nat) : Nat := packBits ((List.range 64).map (fun c => (s.spanStart d c).isSome))

/-- PWR_GATE (R511): G of each logical core. -/
def State.gateWord (s : State) (d : Nat) : Nat := packWords 4 ((List.range 16).map (fun b => s.gateOf d b))

/-- A rail's reading as its register shows it: the mean of 1 ms, 100 reports of its shell (R485, R510; log 87). -/
def State.railMean (s : State) (r word : Nat) : Nat :=
  let one := fun (l : List RailReading) => let x := l.getD r ⟨0, 0, 0⟩; match word with | 0 => x.mv | 4 => x.ma | _ => x.temp
  (s.pwr.railLog.map one).foldl (· + ·) 0 / max 1 s.pwr.railLog.length

/-- A live register of a registrar frame. -/
def State.liveRegistrar (s : State) (f : FrameId) (off : Nat) : Nat :=
  match f with
  | .func c => c + s.host.fwActive.toNat % 256 * 256
  | .lb c =>
    let v := viaLb c
    if off = 4 then b2n (s.docketBusy v) + 2 * b2n (s.replyReady v)
    else leNat (((tget s.host.replies v []).drop (off - 0xC00)).take 4)
  | .mpwr =>
    if off = 4 then b2n s.pwr.rails + 2 * b2n s.pwr.ready + 4 * b2n s.pwr.excursion.isSome + 8 * b2n s.pwr.clamp.isSome
    else if off = 0x10 then s.pwr.mv
    else if off = 0x14 then s.pwr.ma
    else if off = 0x18 then s.pwr.watts
    else if off = 0x1C then s.pwr.mean
    else if off = 0x20 then s.pwr.hostLimit
    else
      s.railMean ((off - 0x100) / 16) (off % 16)
  | .srm =>
    if off = 0 then s.srm.serial.toNat % 2 ^ 32
    else if off = 4 then b2n s.pwr.clamp.isSome + 2 * b2n s.srm.testEnable + 256 * (match s.srm.trips.getLast? with | some t => t.row | none => 0xFF)
    else if off = 8 then s.srm.tripCount
    else if off = 12 then s.srm.denied
    else (s.srm.limits.getD ((off - 0x100) / 4) (0, 0)).1
  | .srmCal => (s.srm.trims.getD (off / 4) 0).toNat
  | _ => 0

/-- A live register of a region frame. -/
def State.liveRegion (s : State) (f : FrameId) (off : Nat) : Nat :=
  match f with
  | .rctl d =>
    if off = 0x110 then (s.region d).active + (s.region d).spare % 32 * 2 ^ 17
    else packWords 8 ((List.range 4).map (fun i => (s.region d).sites.getD ((off - 0x100) + i) 0xFF))
  | .rpwr d =>
    if off = 0 then s.pwr.grants.getD d 0
    else if off = 4 then s.pwr.steps.getD d 0 + s.pwr.caps.getD d 56 % 64 * 256
    else if off = 0x10 then s.gateWord d % 2 ^ 32
    else s.gateWord d / 2 ^ 32
  | .sync d =>
    if off = 8 then (s.copyOf d).toNat % 2 ^ 32
    else if off = 12 then (s.copyOf d).toNat / 2 ^ 32
    else if off = 0x10 then
      b2n s.pm.locked + 2 * s.pm.source.getD 15 + 65536 * wrapNat (clampInt s.pm.offset (-32767) 32767) 16
    else if off = 0x20 then s.dlState d % 2 ^ 32
    else s.dlState d / 2 ^ 32
  | .csv d =>
    let x := tget s.csvs d {}
    if off = 12 then s.opMinutesOf d % 2 ^ 24 + x.cap % 64 * 2 ^ 24 else x.table.getD ((off - 0x200) / 4) 0 % 1024
  | _ => 0

/-- A live register of a core site, engine or port frame. -/
def State.liveUnit (s : State) (f : FrameId) (off : Nat) : Nat :=
  match f with
  | .cu k =>
    if off = 0x224 then s.stkDepth k
    else if off = 0x504 then s.ctxWord k
    else if off = 0x510 then s.pendingMask k % 2 ^ 32
    else s.pendingMask k / 2 ^ 32
  | .tcu k a =>
    let x := s.arr k a
    if off = 0 then s.tcuState k a
    else if off = 0x140 then x.wActShape.toNat
    else if off = 0x144 then x.wShape.toNat
    else (x.store ((off - 0x100) / 4)).cfg.toNat
  | .ae k =>
    if off = 0x20 then
      packBits ((List.range 16).map (fun n => (s.ae k).descs.any (fun e => e.1 == n)))
        + 65536 * packBits ((List.range 16).map (fun n => (s.frec k n).valid))
    else if off < 0x100 then packWords 8 ((List.range 4).map (fun j => (s.queue k ((off - 0x30) + j)).length))
    else (s.frec k ((off - 0x100) / 32)).word (off % 32 / 4)
  | .mc k => flagAt ((s.cache k).maint.any (fun m => m.running)) 31
  | .stk d j => tget s.pwr.stackTemps (d, j) 0
  | .upe d j => s.upeState (2 * d + j)
  | .port p => if off = 4 then (s.lport p).state + (s.lport p).lanes * 256 else s.links.selfId.getD 0 + s.links.rank * 65536
  | .ce d => (s.links.stages.foldl (fun n e => if e.1.1 = d then n + e.2.length else n) 0) % 64
  | _ => 0

/-- A live register. -/
def State.live (s : State) (f : FrameId) (off : Nat) : Nat :=
  match f with
  | .func _ => s.liveRegistrar f off
  | .lb _ => s.liveRegistrar f off
  | .mpwr => s.liveRegistrar f off
  | .srm => s.liveRegistrar f off
  | .srmCal => s.liveRegistrar f off
  | .rctl _ => s.liveRegion f off
  | .rpwr _ => s.liveRegion f off
  | .sync _ => s.liveRegion f off
  | .csv _ => s.liveRegion f off
  | _ => s.liveUnit f off

/-- CSV_SLACKs (R512): 0x3FF when the site is not active; 0 until it is measured. -/
def State.slackWord (s : State) (d i : Nat) : Nat :=
  if (s.region d).active.testBit i then tget (tget s.csvs d {}).slacks i 0 % 1024 else 0x3FF

/-- A register's present value, without the effects of reading it. CORE_STAT shows a freeze (R380); UPE_MEM_TEMP is the last report (R545); a self-clearing bit reads 1 until its action is over (R12). -/
def State.regNow (s : State) (f : FrameId) (off : Nat) : Nat :=
  match regInfo f off with
  | none => 0
  | some i =>
    match i.kind with
    | .status => (s.frame f).status off
    | .live => s.live f off
    | .wo => 0
    | _ =>
      match f with
      | .cu k => if off = 0x500 then s.statWord k else s.reg f off
      | .stk _ _ => if off = 0x10 then s.live f off else s.reg f off
      | .csv d =>
        if 0x100 ≤ off ∧ off < 0x144 then s.slackWord d ((off - 0x100) / 4)
        else if off = 4 then b2n (tget s.csvs d {}).request else s.reg f off
      | .lane p l => if off = 0 then s.laneWord p l else if off = 0x20 then s.reg f off ||| b2n (tget s.links.margins (p, l) false) else s.reg f off
      | _ => s.reg f off

/-- Whether an offset is the low word of a captured quantity (R50). -/
def capturesLow (f : FrameId) (off : Nat) : Bool :=
  match regInfo f off with
  | some i =>
    i.kind == .ctrLo || (match f with
      | .sync _ => off == 8 || off == 0x20
      | .cu _ => off == 0x510
      | .func _ => off == 0x18
      | .ae _ => decide (0x100 ≤ off) && decide (off < 0x300) && off % 32 == 8
      | .rpwr _ => off == 0x10
      | _ => false)
  | none => false

/-- A read of an implemented register through any view (R46, R50, R51): the state after and the value. Write-only bits read as nothing fixes (log 11), the others of their register 0 (R62). -/
def State.readFrame (s : State) (ag : Agent) (f : FrameId) (off : Nat) : State × Nat :=
  if capturesLow f off then
    let hi := BitVec.ofNat 32 (s.regNow f (off + 4))
    (s.modFrame f (fun fr => { fr with captures := tset fr.captures (ag, off + 4) hi }), s.regNow f off)
  else if decide (4 ≤ off) && capturesLow f (off - 4) then (s, (tget (s.frame f).captures (ag, off) 0).toNat)
  else match regInfo f off with
  | some ⟨.wo, m, _⟩ => ({ s with freeCtr := s.freeCtr + 1 }, (Config.freeValue s.freeCtr).toNat &&& m)
  | _ => (s, s.regNow f off)

/-- A read at a frame: none is a bus error (R59, R62). -/
def State.readReg (s : State) (ag : Agent) (f : FrameId) (off : Nat) : State × Option Nat :=
  match regInfo f off with
  | none => (s, none)
  | some _ =>
    if setHas (s.frame f).badParity off then (s.parityFound f off, none)
    else
      let s := match f with | .tcu k a => (if off = 0x10 then s.flagsDue k a else s) | _ => s
      let (s, v) := s.readFrame ag f off
      (s, some v)

/-! ## Writes -/

/-- The value a write through a view stores into the bits of `mask` (R46). -/
def viewValue (view old mask v : Nat) : Nat :=
  match view with
  | 0 => (old &&& (0xFFFFFFFF ^^^ mask)) ||| (v &&& mask)
  | 1 => old ||| (v &&& mask)
  | 2 => old &&& (0xFFFFFFFF ^^^ (v &&& mask))
  | _ => old ^^^ (v &&& mask)

/-- The value a register stores for what was written to it: the limits of R154, R232, R305, R511. -/
def limited (f : FrameId) (off v : Nat) : Nat :=
  match f, off with
  | .cu _, 0x230 => min v 512
  | .tcu _ _, 4 => clampNat (v / 8 * 8) 16 96
  | .ae _, 8 => clampNat v 4 64
  | .rpwr _, 8 => min v 56
  | _, _ => v

/-- HOST_BAR2_BASE (R468): refused when the window would pass the end of memory. -/
def State.bar2Base (s : State) (c v : Nat) : State :=
  let size := if c = 0 then s.host.bar2Pf else s.host.bar2Vf
  if memTop < (v + size) * 2 ^ 30 then s.raise (.func c) 0x10 2 else s.setReg (.func c) 0x20 v

/-- MCACHE_CTRL (R290, R309). -/
def State.mcacheCtrl (s : State) (k v : Nat) : State :=
  let inv := (tget (s.frame (.mc k)).flags 0x10 0).getLsbD 0
  if v.testBit 0 && !inv then s.raise (.mc k) 0x10 1
  else
    let old := s.reg (.mc k) 0
    let s := s.setReg (.mc k) 0 v
    if old.testBit 0 && !v.testBit 0 then
      s.modFrame (.mc k) (fun fr => { fr with flags := tset fr.flags 0x10 (tget fr.flags 0x10 0 &&& 0xFFFE) })
    else s

/-- LB_SUBMIT (R473): the docket buffer is copied to Moant. -/
def State.submit (s : State) (c : Nat) : State :=
  let v := viaLb c
  if s.docketBusy v || s.replyReady v then s.raise (.lb c) 0x10 1
  else
    let bytes := (List.range 256).flatMap (fun i => u32 (s.reg (.lb c) (0x800 + 4 * i)))
    { s with host := { s.host with dockets := s.host.dockets ++ [⟨v, bytes, false⟩] } }

/-- Set the eye measurement of a lane going (R459). -/
def State.marginStart (s : State) (p l : Nat) : State :=
  let v := s.reg (.lane p l) 0x20
  let s := s.setReg (.lane p l) 0x20 (v &&& (0xFFFFFFFF ^^^ 2))
  { s with links := { s.links with margins := tset s.links.margins (p, l) true } }

/-- PTB_FLIP GO (R529): invert the hidden parity bit of a register of the region. -/
def State.flipParity (s : State) (d roff : Nat) : State :=
  match s.regionFrame d roff with
  | some (some f) =>
    let off := roff % 0x1000
    if hasParity f off then
      s.modFrame f (fun fr => { fr with badParity := if setHas fr.badParity off then setDel fr.badParity off else setAdd fr.badParity off })
    else s
  | _ => s

/-- A WB change (R65). -/
def State.wbAltered (s : State) (f : FrameId) (off old new : Nat) : State :=
  if old = new then s else s.event f 0x102 0xFF 0 (u32 off ++ u32 old ++ u32 new)

/-- Effects of writing registers that are not just stored: those of write-only and self-clearing bits and those that set units going. `v` is the value after the view's merge, `raw` what was written. None: an ordinary register. -/
def State.writeActs (s : State) (f : FrameId) (off v raw : Nat) (plain : Bool) : Option State :=
  match f, off with
  | .cu k, 0x210 => some ((s.setReg f off v).foldReload k v)
  | .cu k, 0x538 => some (if plain then s.raiseMask (.cu k) 0x254 (raw % 65536) else s)
  | .tcu k a, 4 =>
    let s := s.setReg f 4 (limited f 4 v)
    some (if (s.arr k a).ramp.isSome then s.flagNow k a 2 else s)
  | .ae k, 0xC => some (if plain && raw.testBit 0 then s.modAe k Ae.flushTlb else s)
  | .ae k, 0x40 => some (if plain then s.qflush k (raw % 65536) else s)
  | .mc k, 0 => some (s.mcacheCtrl k v)
  | .mc k, 4 => some (if plain && raw % 4 != 0 then s.maintRequest k (raw % 4) false else s)
  | .func c, 0x20 => some (s.bar2Base c v)
  | .lb c, 0 => some (if plain && raw.testBit 0 then s.submit c else s)
  | .lb c, 8 => some (if plain && raw.testBit 0 then { s with host := { s.host with replies := tdel s.host.replies (viaLb c) } } else s)
  | .port p, 0 => some (s.linkEnable p v)
  | .lane p l, 0 => some (if plain && raw.testBit 16 then s.laneRetrain p l else s)
  | .lane p l, 0x20 => some (if plain && raw.testBit 0 then s.marginStart p l else s)
  | .csv d, 8 => some ((s.setReg f off v).marginCheck d)
  | .csv d, 4 => some (if plain && raw.testBit 0 then { s with csvs := tmod s.csvs d {} (fun x => { x with request := true }) } else s)
  | .ptb d, 0x20 =>
    let wb := fun (x : Nat) => x &&& 0x7F000000
    let old := s.reg f off
    let s := (s.setReg f off v).wbAltered f off (wb old) (wb v)
    some (if plain && raw.testBit 31 then s.flipParity d (v % 2 ^ 24) else s)
  | .ae k, _ =>
    if 0x100 ≤ off ∧ off < 0x300 ∧ off % 32 = 0x10 then some (if plain then s.aeRestart k ((off - 0x100) / 32) raw else s) else none
  | .upe d j, _ =>
    if 0x400 ≤ off ∧ off < 0x800 ∧ off % 16 = 8 then some ((s.ringCfg f off v).getD (s.raise (.upe d j) 0x10 3)) else none
  | .ce d, _ =>
    if 0x400 ≤ off ∧ off < 0x800 ∧ off % 16 = 8 then some ((s.ringCfg f off v).getD (s.raise (.ce d) 0x10 3))
    else if 0x800 ≤ off ∧ off < 0x900 then
      let s := s.setReg f off v
      some { s with links := { s.links with ceGens := tset s.links.ceGens (d, (off - 0x800) / 4) ((List.range 64).map (fun l => BitVec.ofNat 32 (seedLane v l))) } }
    else none
  | .revt, _ =>
    if 0x100 ≤ off ∧ off < 0x500 ∧ off % 16 = 8 then some ((s.evtRingCfg off v).getD (s.raise .revt 0x40 1)) else none
  | .func c, _ =>
    if 0x100 ≤ off ∧ off < 0x180 ∧ off % 8 = 0 then
      let n := (off - 0x100) / 8
      let old := s.reg f off
      let s := s.setReg f off v
      some (if v.testBit 31 && !old.testBit 31 then { s with host := { s.host with watchIds := tset s.host.watchIds (c, n) (v % 4096) } } else s)
    else none
  | _, _ => none

/-- Whether a write's precondition is unmet (R68, R290, R389, R468, R535): the register then keeps its value and its parity bit. -/
def State.refuses (s : State) (f : FrameId) (off v : Nat) : Bool :=
  match f with
  | .mc k => off == 0 && v.testBit 0 && !(tget (s.frame (.mc k)).flags 0x10 0).getLsbD 0
  | .func c => off == 0x20 && decide (memTop < (v + (if c = 0 then s.host.bar2Pf else s.host.bar2Vf)) * 2 ^ 30)
  | .upe _ _ => decide (0x400 ≤ off) && decide (off < 0x800) && off % 16 == 8 && (s.ringCfg f off v).isNone
  | .ce _ => decide (0x400 ≤ off) && decide (off < 0x800) && off % 16 == 8 && (s.ringCfg f off v).isNone
  | .revt => decide (0x100 ≤ off) && decide (off < 0x500) && off % 16 == 8 && (s.evtRingCfg off v).isNone
  | _ => false

/-- A write of the low word loads a counter: an array counts nothing more into it in its present cycle (R235). -/
def State.counterLoaded (s : State) (f : FrameId) (off : Nat) : State :=
  match f with
  | .tcu k a => s.modArr k a (fun y => { y with lostCounts := off :: y.lostCounts })
  | _ => s

/-- A write to an implemented register through a view (R46 to R48, R56, R58, R62, R68). -/
def State.writeFrame (s : State) (f : FrameId) (off view raw : Nat) : State :=
  match regInfo f off with
  | none => s
  | some i =>
    match i.kind with
    | .status => if view = 0 then s.modFrame f (fun fr => fr.writeStatus off raw) else s
    | .live =>
      (match f with
       | .mc _ => (s.writeActs f off 0 raw (view == 0)).getD s
       | _ => s)
    | _ =>
      let mask := if view = 0 then i.mask else rwMask f off
      let old := s.reg f off
      let v := viewValue view old mask raw
      let done := if s.refuses f off v then s else s.modFrame f (fun fr => fr.fixParity off)
      match done.writeActs f off v raw (view == 0) with
      | some t => t
      | none =>
        match i.kind with
        | .ctrLo => (s.modFrame f (fun fr => ((fr.setReg off v).setReg (off + 4) 0).fixParity off)).counterLoaded f off
        | .ctrHi => s.modFrame f (fun fr => (fr.setReg off v).fixParity off)
        | _ =>
          if mask = 0 then s
          else
            let s := s.modFrame f (fun fr => (fr.setReg off (limited f off v)).fixParity off)
            if f.privileged then
              let wb := 0xFFFFFFFF ^^^ rwMask f off
              s.wbAltered f off (old &&& wb) (v &&& wb)
            else s

/-- A write at a frame; none is a bus error (R62, R66). -/
def State.writeReg (s : State) (f : FrameId) (off view raw : Nat) : Option State :=
  match regInfo f off with
  | none => none
  | some _ =>
    match f with
    | .srm => none
    | .srmCal => none
    | .ptb _ => if s.srm.testEnable then some (s.writeFrame f off view raw) else none
    | _ => some (s.writeFrame f off view raw)

/-! ## The host's functions (R460, R461, R463, R471) -/

/-- Vendor ID, device IDs and class code (R460). -/
def vendorId : Nat := 0x1F4C
/-- Device ID of a function. -/
def deviceId (fn : Nat) : Nat := if fn = 0 then 0x4B38 else 0x4B39
/-- Class code. -/
def classCode : Nat := 0x120000

/-- Change a function's configuration. -/
def State.modFn (s : State) (fn : Nat) (g : HostFn → HostFn) : State := { s with host := { s.host with fns := tmod s.host.fns fn {} g } }

/-- AER records an error of a function. -/
def State.aer (s : State) (fn : Nat) (e : AerError) : State := s.modFn fn (fun x => if x.aer.contains e then x else { x with aer := x.aer ++ [e] })

/-- A vector of a function fires: its MSI-X write is sent when Bus Master Enable and the table allow it, else it is pending (R461, R470). -/
def State.msix (s : State) (fn v : Nat) : State :=
  let x := tget s.host.fns fn {}
  if x.busMaster && !(x.msix.getD v {}).masked then { s with out := s.out ++ [.msix fn v] }
  else s.modFn fn (fun x => { x with msixPending := setAdd x.msixPending v })

/-- Whether a register offset lies in BAR0 of an enabled function: 256 MiB, or 4 MiB of a virtual function (R463). -/
def State.inBar0 (s : State) (ag : Agent) (o : Nat) : Bool :=
  match ag with
  | .host fn => fn.val == 0 || (decide (fn.val ≤ s.host.vfs) && decide (o < 0x400000))
  | _ => true

/-- A request of the host outside every BAR (R471). -/
def State.unsupported (s : State) (fn : Nat) : State := if fn ≤ s.host.vfs then s.aer fn .unsupportedRequest else s

/-- A request longer than the port takes: malformed, it is not performed and not answered (R460, R471; log 82). -/
def State.malformed (s : State) (fn : Nat) : State := s.aer fn .malformedTlp

/-- The host link carries a request. Whether its link layer corrected an error or replayed on the way is left open (log 135); the physical function's AER reports it (R471). -/
def State.hostHop (s : State) : State :=
  let t : State := { s with freeCtr := s.freeCtr + 1 }
  if (Config.freeValue s.freeCtr).getLsbD 0 then t.aer 0 .correctableInternal else t

/-- A read that ends in Unsupported Request. -/
def State.readUnsupported (s : State) (fn : Nat) : State := { s.unsupported fn with out := s.out ++ [.unsupported fn] }

/-- A read that ends in Completer Abort (R72, R471). -/
def State.readAbort (s : State) (fn : Nat) : State := { s.aer fn .completerAbort with out := s.out ++ [.abort fn] }

/-! ## Whole accesses by an agent -/

/-- A core's register access ends in a bus error (R72, R349): masked, the flag; else the core enters for BUS_ERROR, ADDR the BAR0 offset. `s` is the state before the access: a core that is at no boundary makes none, and what items 1 and 2 of R351 take there comes in its place. `t` is what the access left: a freeze that it brought on the core's own control unit does not keep the cause from being taken (log 128). -/
def State.coreBusError (s t : State) (k : Fin 128) (o : Nat) : State :=
  if !s.atBoundary k.val then s
  else match s.takeBoundary k.val k.isLt with
  | some u => u
  | none =>
    if s.masked k.val 7 then t.noteMasked k.val 7
    else (t.cancelWait k.val k.isLt).precise k.val { code := 7, addr := BitVec.ofNat 64 o } (s.core k.val).pc

/-- A bus error on a write that left `t` (R72): a host write sets BUSERR and keeps the first offset; Moant is told (log 118). Outside every BAR it is an Unsupported Request instead (R471). -/
def State.writeFailed (s t : State) (ag : Agent) (o : Nat) : State :=
  match ag with
  | .host fn =>
    if !t.inBar0 ag o then t.unsupported fn.val
    else
    let f := FrameId.func fn.val
    let t := if (tget (t.frame f).flags 0x10 0).getLsbD 0 then t else t.setReg f 0x14 o
    t.flagEvent f 0x10 0 0x201 fn.val (u32 o)
  | .core k => s.coreBusError t k o
  | .mgmt => { t with out := t.out ++ [.busError ag] }

/-- A bus error on a write that touched nothing. -/
def State.writeError (s : State) (ag : Agent) (o : Nat) : State := s.writeFailed s ag o

/-- A bus error on a read that left `t` (R72): Completer Abort for the host; a core's masked read delivers 0 (R349). -/
def State.readFailed (s t : State) (ag : Agent) (o : Nat) : State :=
  match ag with
  | .host fn => if t.inBar0 ag o then t.readAbort fn.val else t.readUnsupported fn.val
  | .core k => s.coreBusError (if s.masked k.val 7 then { t with out := t.out ++ [.registerRead ag 0] } else t) k o
  | .mgmt => { t with out := t.out ++ [.busError ag] }

/-- A bus error on a read that touched nothing. -/
def State.readError (s : State) (ag : Agent) (o : Nat) : State := s.readFailed s ag o

/-- The agent byte of SRM_WRITE_DENIED (R515). -/
def agentCode : Agent → Nat
  | .host _ => 0
  | .core _ => 1
  | .mgmt => 2

/-- Whether an agent's offset lies in the strongroom's frames: for the agents of the physical function's BAR0 (R537). -/
def inStrongroom (ag : Agent) (o : Nat) : Bool :=
  decide (0x100000 ≤ o) && decide (o < 0x108000) && (match ag with | .host fn => fn.val == 0 | _ => true)

/-- A write to a strongroom frame, from any agent and of any size (R494): a bus error, counted and reported. -/
def State.srmDenied (s : State) (ag : Agent) (o v : Nat) : State :=
  let t : State := { s with srm := { s.srm with denied := (s.srm.denied + 1) % 2 ^ 32 } }
  s.writeFailed (t.event .srm 0x109 0xFF 0 (u8 (agentCode ag) ++ [0, 0, 0] ++ u32 o ++ u32 v)) ag o

/-- A register write by an agent at BAR0 offset `o`. A write to a powered-down domain ends in a bus error (R71). -/
def State.write (s : State) (ag : Agent) (o v : Nat) : State :=
  if inStrongroom ag o then s.srmDenied ag o v
  else match s.target ag o true with
  | .frame f off view =>
    match s.writeReg f off view v with
    | some t => t
    | none => s.writeError ag o
  | _ => s.writeError ag o

/-- A register read by an agent at BAR0 offset `o`. -/
def State.read (s : State) (ag : Agent) (o : Nat) : State :=
  match s.target ag o false with
  | .frame f off _ =>
    match s.readReg ag f off with
    | (t, some v) => { t with out := t.out ++ [.registerRead ag (BitVec.ofNat 32 v)] }
    | (t, none) => s.readFailed t ag o
  | _ => s.readError ag o

/-- A write of `n` bytes: only four make a register access (R49). -/
def State.writeSized (s : State) (ag : Agent) (o n v : Nat) : State := if n = 4 || inStrongroom ag o then s.write ag o v else s.writeError ag o

/-- A read of `n` bytes (R49). -/
def State.readSized (s : State) (ag : Agent) (o n : Nat) : State := if n = 4 then s.read ag o else s.readError ag o

/-- An offset with its view replaced: which row of the command table was used says the view. -/
def atView (o view : Nat) : Nat := o - o % 0x4000 + view * 0x1000 + o % 0x1000

end Sys2Proof.Machine
end

