-- ==== Sys2Proof/Machine/Operands.lean ====
section
/-! DEFINITION. How a core instruction issues: its boundary, its guard, its faults, spill and fill, its operands on the two stacks, its wait, its effect, the PC (R111 to R120, R132, R133, R140, R150, R316, R351, R352). The head of a stack list is its top. -/
namespace Sys2Proof.Machine

/-! ## Operand stacks -/

/-- Entry `n` from the top of the integer stack. -/
def State.itop (s : State) (k n : Nat) : W64 := (s.core k).istk.getD n 0
/-- Drop `n` integer entries. -/
def State.ipop (s : State) (k n : Nat) : State := s.modCore k (fun c => { c with istk := c.istk.drop n })
/-- Push an integer entry. -/
def State.ipush (s : State) (k : Nat) (v : W64) : State := s.modCore k (fun c => { c with istk := v :: c.istk })
/-- An all-zero slot. -/
def zeroSlot : VSlot := ⟨0, 0⟩
/-- Slot `n` from the top of the V-stack. -/
def State.vtop (s : State) (k n : Nat) : VSlot := (s.core k).vstk.getD n zeroSlot
/-- Drop `n` slots. -/
def State.vpop (s : State) (k n : Nat) : State := s.modCore k (fun c => { c with vstk := c.vstk.drop n })
/-- Push a slot. -/
def State.vpush (s : State) (k : Nat) (v : VSlot) : State := s.modCore k (fun c => { c with vstk := v :: c.vstk })
/-- A scalar in its slot: the rest is zero (R112). -/
def scalarSlot (w v : Nat) (poison : Bool := false) : VSlot := ⟨BitVec.ofNat 8192 (v % 2 ^ w), if poison then 1 else 0⟩
/-- The scalar of width `w` in slot `n` from the top. -/
def State.scalar (s : State) (k n w : Nat) : Nat := (s.vtop k n).v.toNat % 2 ^ w

/-! ## Spill and fill (R116 to R119) -/

/-- A register offset's low 19 bits hold a spill pointer. -/
def ptrMod : Nat := 2 ^ 19

/-- Read an integer group back beneath the on-core entries (R117). -/
def State.fillI (s : State) (k : Nat) : State :=
  let p := (s.reg (.cu k) 0x404 + ptrMod - 64) % ptrMod
  let g := (List.range 8).map (fun j => BitVec.ofNat 64 (s.dmemNat k (p + 8 * (7 - j)) 8))
  (s.setReg (.cu k) 0x404 p).modCore k (fun c => { c with istk := c.istk ++ g })

/-- Write the deepest integer group to the spill area (R117). -/
def State.spillI (s : State) (k : Nat) : State :=
  let p := s.reg (.cu k) 0x404
  let l := (s.core k).istk
  let g := (l.drop (l.length - 8)).reverse
  let s := s.dmemWriteP k p (g.flatMap (fun v => u64 v.toNat)) false
  (s.setReg (.cu k) 0x404 ((p + 64) % ptrMod)).modCore k (fun c => { c with istk := l.take (l.length - 8) })

/-- Whether a spill of `n` bytes at `p` exhausts an area with limit `lim` (R118). -/
def spillOver (p n lim : Nat) : Bool := decide (lim < p + n) || decide (boxAt < p + n)

/-- The four quarters' poison bits of a slot in core data memory. -/
def State.slotPoison (s : State) (k a : Nat) : BitVec 4 :=
  BitVec.ofNat 4 (packBits ((List.range 4).map (fun q => s.dmemPoison k (a + 256 * q) 256)))

/-- Read a V-stack slot back beneath the on-core slots (R117, R120). -/
def State.fillV (s : State) (k : Nat) : State :=
  let p := (s.reg (.cu k) 0x414 + ptrMod - 1024) % ptrMod
  let v : VSlot := ⟨BitVec.ofNat 8192 (s.dmemNat k p 1024), s.slotPoison k p⟩
  ((s.setReg (.cu k) 0x414 p).modCore k (fun c => { c with vstk := c.vstk ++ [v] })).bump (.cu k) 0x4B0 8

/-- Write the quarters of a slot with their poison. -/
def State.writeQuarters (s : State) (k a : Nat) (v : VSlot) : Nat → State
  | 0 => s
  | n + 1 => (s.writeQuarters k a v n).dmemWriteP k (a + 256 * n) (leBytes 256 (bits v.v.toNat (2048 * n) 2048)) (v.poison.getLsbD n)

/-- Write the deepest slot to the spill area (R117, R120). -/
def State.spillV (s : State) (k : Nat) : State :=
  let p := s.reg (.cu k) 0x414
  let l := (s.core k).vstk
  let s := s.writeQuarters k p (l.getLast?.getD zeroSlot) 4
  ((s.setReg (.cu k) 0x414 ((p + 1024) % ptrMod)).modCore k (fun c => { c with vstk := l.dropLast })).bump (.cu k) 0x4B0 8

/-- A stack made ready: the state, and whether its area was exhausted by a fill or by a spill. -/
structure Prep where
  st : State
  under : Bool := false
  exhausted : Bool := false

/-- Make the integer stack ready for `p` pops and `q` pushes; with `lossy` an exhausted area supplies zeros or discards (R119). -/
def State.prepI (s : State) (k p q : Nat) (lossy : Bool) : Nat → Prep
  | 0 => ⟨s, false, false⟩
  | n + 1 =>
    let l := (s.core k).istk
    if l.length < p then
      if s.reg (.cu k) 0x404 = s.reg (.cu k) 0x400 then
        if lossy then
          let s := s.modCore k (fun c => { c with istk := l ++ List.replicate (p - l.length) 0 })
          let r := s.prepI k p q lossy n
          { r with under := true }
        else ⟨s, true, false⟩
      else (s.fillI k).prepI k p q lossy n
    else if 32 < l.length - p + q then
      if spillOver (s.reg (.cu k) 0x404) 64 (s.reg (.cu k) 0x408) then
        if lossy then
          let r := (s.modCore k (fun c => { c with istk := l.take (l.length - 8) })).prepI k p q lossy n
          { r with exhausted := true }
        else ⟨s, false, true⟩
      else (s.spillI k).prepI k p q lossy n
    else ⟨s, false, false⟩

/-- Make the V-stack ready. -/
def State.prepV (s : State) (k p q : Nat) (lossy : Bool) : Nat → Prep
  | 0 => ⟨s, false, false⟩
  | n + 1 =>
    let l := (s.core k).vstk
    if l.length < p then
      if s.reg (.cu k) 0x414 = s.reg (.cu k) 0x410 then
        if lossy then
          let r := (s.modCore k (fun c => { c with vstk := l ++ List.replicate (p - l.length) zeroSlot })).prepV k p q lossy n
          { r with under := true }
        else ⟨s, true, false⟩
      else (s.fillV k).prepV k p q lossy n
    else if 16 < l.length - p + q then
      if spillOver (s.reg (.cu k) 0x414) 1024 (s.reg (.cu k) 0x418) then
        if lossy then
          let r := (s.modCore k (fun c => { c with vstk := l.dropLast })).prepV k p q lossy n
          { r with exhausted := true }
        else ⟨s, false, true⟩
      else (s.spillV k).prepV k p q lossy n
    else ⟨s, false, false⟩

/-! ## The instruction as its meaning describes it -/

/-- What one instruction needs and does, once its operands are on the core: pops and pushes on the two stacks; whether its encoding is reserved; faults that need no operand; faults that read operands; what finding a cause of some code leaves behind (walks, records of fenced reads); the effect when a masked fault governs; what it waits for, with the state while it waits; its effect; whether it sets the PC itself. -/
structure CoreOp where
  ipop : Nat := 0
  ipush : Nat := 0
  vpop : Nat := 0
  vpush : Nat := 0
  len : Nat := 4
  reserved : Bool := false
  pre : List Cause := []
  faults : State → List Cause := fun _ => []
  probe : Nat → State → State := fun _ s => s
  masked : Nat → State → State := fun _ s => s
  wait : State → Option (WaitKind × State) := fun _ => none
  run : State → State := fun s => s
  ownPc : Bool := false

/-- An instruction of two integer operands a b and one result (R114, R137). -/
def int2 (i : Issue) (f : W64 → W64 → W64) : CoreOp :=
  { ipop := 2, ipush := 1, run := fun s => (s.ipop i.core 2).ipush i.core (f (s.itop i.core 1) (s.itop i.core 0)) }

/-- An instruction of one integer operand and one result. -/
def int1 (i : Issue) (f : W64 → W64) : CoreOp :=
  { ipop := 1, ipush := 1, run := fun s => (s.ipop i.core 1).ipush i.core (f (s.itop i.core 0)) }

/-- An instruction that pushes an integer. -/
def int0 (i : Issue) (f : State → W64) : CoreOp :=
  { ipush := 1, run := fun s => s.ipush i.core (f s) }

/-- An instruction that replaces the top `n` integer entries by others, the new top first. -/
def intShuffle (i : Issue) (n q : Nat) (f : List W64 → List W64) : CoreOp :=
  { ipop := n, ipush := q, run := fun s => s.modCore i.core (fun c => { c with istk := f (c.istk.take n) ++ c.istk.drop n }) }

/-- The same on the V-stack: whole slots with their poison. -/
def slotShuffle (i : Issue) (n q : Nat) (f : List VSlot → List VSlot) : CoreOp :=
  { vpop := n, vpush := q, run := fun s => s.modCore i.core (fun c => { c with vstk := f (c.vstk.take n) ++ c.vstk.drop n }) }

/-- PRIVILEGE at user level (R145). -/
def State.supervisorOnly (s : State) (i : Issue) : List Cause := if s.priv i.core then [] else [{ code := 1 }]

/-- Both stacks made ready. DESIGN CHOICE (log 140): the integer stack first; where its area is exhausted and STACK_LIMIT is not masked, the V-stack is not looked at and only the integer stack's flag sets. -/
def State.prep (s : State) (k : Nat) (op : CoreOp) (lossy : Bool) : Prep × Prep :=
  let a := s.prepI k op.ipop op.ipush lossy 16
  if (a.under || a.exhausted) && !lossy then (a, ⟨a.st, false, false⟩)
  else
    let b := a.st.prepV k op.vpop op.vpush lossy 40
    (a, b)

/-- The flags of exhausted areas in CORE_CUSTAT (R118, R124). -/
def State.noteLimits (s : State) (k : Nat) (a b : Prep) : State :=
  s.raiseMask (.cu k) 0x228 (b2n a.exhausted + 2 * b2n a.under + 4 * b2n b.exhausted + 8 * b2n b.under)

/-- The cause with the lowest code (R351 item 3). -/
def lowest : List Cause → Option Cause
  | [] => none
  | c :: r => match lowest r with
    | none => some c
    | some d => if d.code < c.code then some d else some c

/-- An instruction or bundle has issued: it no longer waits, an entry is complete, CORE_ISSUED counts it (R356, R532). -/
def State.issued (s : State) (k : Nat) (h : k < 128) : State :=
  (((s.cancelWait k h).modCore k (fun c => { c with entering := false, tileHold := false })).bump (.cu k) 0x4C8 1).act k

/-- The PC moves past the instruction. -/
def State.skip (s : State) (k len : Nat) : State := s.modCore k (fun c => { c with pc := c.pc + BitVec.ofNat 64 len })

/-- Record that the instruction waits, keeping an earlier start of the same wait; another wait's entry is withdrawn (R316, R328). -/
def State.waits (s : State) (k : Nat) (h : k < 128) (ins : Instr) (w : WaitKind) : State :=
  let same := match (s.core k).waiting with
    | some x => x.kind == w
    | none => false
  if same then s
  else
    let s : State := match w with
      | .sync _ => s
      | _ => s.dropWait (.core ⟨k, h⟩)
    s.modCore k (fun c => { c with waiting := some ⟨w, s.copyOf (regionOf k), BitVec.ofNat 32 (s.reg (.cu k) 0x460), ins, false⟩ })

/-- The instruction runs, or waits. -/
def State.perform (s : State) (k : Nat) (h : k < 128) (ins : Instr) (op : CoreOp) : State :=
  match op.wait s with
  | some (w, s') => s'.waits k h ins w
  | none =>
    let s := op.run (s.issued k h)
    if op.ownPc then s else s.skip k op.len

/-- RESERVED_OPCODE of the word at the PC (R150, R238, R356): INFO is the word. -/
def State.reservedFault (s : State) (k : Nat) (h : k < 128) (w : W32) (len : Nat) : State :=
  let c : Cause := { code := 0, precise := true, info := w.setWidth 64 }
  if s.masked k 0 then ((s.noteMasked k 0).issued k h).skip k len
  else
    let s := s.cancelWait k h
    if (s.core k).entering then s.enteringFault k c (s.core k).pc else s.precise k c (s.core k).pc

/-- A governing precise cause: raised when unmasked, else its masked behaviour (R351 item 3); a SYSCALL saves the next address, but the third fault it becomes under DF names its own (R147, R360). `base` is the state without, `trial` the state with the stacks supplied under R119: a masked PRIVILEGE skips the instruction without effect (R145), the others take operands and give results. DESIGN CHOICE (log 114): with STACK_LIMIT unmasked and an area exhausted, the masked behaviour of the lower cause that governs is still given the operands of R119, and no flag of CORE_CUSTAT is set, since STACK_LIMIT is neither raised nor recorded; with STACK_LIMIT masked too, that cause alone governs, so entries are discarded or supplied under R119 without its flags. -/
def State.govern (base trial : State) (k : Nat) (h : k < 128) (ins : Instr) (op : CoreOp) (c : Cause) : State :=
  let probed := fun (s : State) => if c.code = 4 ∨ c.code = 7 ∨ (c.code = 8 ∧ !s.masked k 8) then op.probe c.code s else s
  let base := probed base
  let trial := probed trial
  if base.masked k c.code then
    if c.code = 8 then (trial.noteMasked k 8).perform k h ins op
    else if c.code = 1 then ((base.noteMasked k 1).issued k h).skip k op.len
    else
      let s := op.masked c.code ((trial.noteMasked k c.code).issued k h)
      s.skip k op.len
  else
    let s := base.cancelWait k h
    let pc := (s.core k).pc
    s.precise k c (if c.code = 2 && !s.inDf k then pc + BitVec.ofNat 64 op.len else pc)

/-- STACK_LIMIT governs (R118, R119): `p` and `q` say which areas the two ways of making ready exhausted. -/
def State.limits (base trial : State) (k : Nat) (h : k < 128) (ins : Instr) (op : CoreOp) (p q : Prep × Prep) : State :=
  if base.masked k 9 then
    let s := (trial.noteLimits k q.1 q.2).raise (.cu k) 0x228 4
    s.perform k h ins op
  else
    let s := (base.noteLimits k p.1 p.2).cancelWait k h
    s.precise k { code := 9 } (s.core k).pc

/-- One core instruction comes to issue on its core. A core that cannot issue, or that R254 holds, leaves the state as it is (log 3). -/
def State.issue (s : State) (i : Issue) (ins : Instr) (op : CoreOp) : State :=
  let k := i.core.val
  let h := i.core.isLt
  if !s.atBoundary k then s
  else match s.takeBoundary k h with
  | some s' => s'
  | none =>
    if (s.core k).tileHold && !s.tilesQuiet k then s
    else
    let pc := (s.core k).pc
    let misplaced := op.len = 16 ∧ pc.toNat % 16 ≠ 0
    if op.reserved ∨ misplaced then s.reservedFault k h (firstWord ins) (if misplaced then 4 else op.len)
    else if s.predBit k i.g.toNat == i.s then (s.issued k h).skip k op.len
    else
      let (a, b) := s.prep k op false
      let base := b.st
      if a.under || a.exhausted || b.under || b.exhausted then
        let (ta, tb) := s.prep k op true
        let trial := tb.st
        let hidden := (ta.under || tb.under) && !s.masked k 9
        match lowest (op.pre ++ (if hidden then [] else op.faults trial)) with
        | some c => if c.code < 9 then base.govern trial k h ins op c else base.limits trial k h ins op (a, b) (ta, tb)
        | none => base.limits trial k h ins op (a, b) (ta, tb)
      else
        match lowest (op.pre ++ op.faults base) with
        | some c => base.govern base k h ins op c
        | none => base.perform k h ins op

/-- The outcome of an instruction: always a next state. -/
def State.coreStep (s : State) (i : Issue) (ins : Instr) (op : CoreOp) : Host.Outcome State Fault Refusal := .next (s.issue i ins op)

end Sys2Proof.Machine
end

