-- ==== Sys2Proof/Machine/ScalarMem.lean ====
section
/-! DEFINITION. Scalar loads and stores: device memory through the memory cache and the tray, and core data memory (R112, R115, R127, R137, R138, R169, R280). -/
namespace Sys2Proof.Machine

/-- Bytes a load moves (R137). -/
def loadBytes : LoadWidth → Nat
  | .b => 1 | .bu => 1 | .h => 2 | .hu => 2 | .w => 4 | .wu => 4 | .d => 8

/-- A loaded value as the entry it becomes: U forms zero-extend. -/
def loadExtend (wd : LoadWidth) (v : Nat) : W64 :=
  match wd with
  | .b => BitVec.ofInt 64 (sext v 8)
  | .h => BitVec.ofInt 64 (sext v 16)
  | .w => BitVec.ofInt 64 (sext v 32)
  | _ => BitVec.ofNat 64 v

/-- Bytes a store moves. -/
def storeBytes : StoreWidth → Nat
  | .b => 1 | .h => 2 | .w => 4 | .d => 8

/-- MCACHE_CTRL.ALLOC_DEMAND (R287). -/
def State.allocDemand (s : State) (k : Nat) : Bool := (s.reg (.mc k) 0).testBit 1

/-- The rights an access of a core needs. -/
def State.access (s : State) (k : Nat) (write : Bool) : Access := ⟨!s.priv k, write⟩

/-- What an access waits for: the access engine and the memory cache to run, and the sorting frame to let its requests go (R61, R255, R276, R293). A range that does not translate waits for nothing more, one whose walk is held waits for it. -/
def State.loadWait (s : State) (k va n : Nat) : Option (WaitKind × State) :=
  match s.xlateRange k (s.access k false) va n with
  | (t, .inr segs) => if t.readsGo k segs then none else some (.memory, t.readStall k segs)
  | (_, .inl (c, _)) => if s.readsGo k [] && c != xHeld then none else some (.memory, s)

/-- As State.loadWait, of a store of `data` to `va`; poison changes nothing in it. -/
def State.storeWait (s : State) (k va n : Nat) : Option (WaitKind × State) :=
  match s.xlateRange k (s.access k true) va n with
  | (t, .inr segs) =>
    let l := lineGroups (segParts false segs (List.replicate n 0))
    if t.writesGo k l then none else some (.memory, t.writeStall k l)
  | (_, .inl (c, _)) => if s.writesGo k [] && c != xHeld then none else some (.memory, s)

/-- What translating a range leaves behind. -/
def State.probe (s : State) (k : Nat) (write : Bool) (va n : Nat) : State := (s.xlateRange k (s.access k write) va n).1

/-- XLATE_FAULT and MISALIGNED of a range (R138, R272, R357): ADDR is the lowest faulting address, INFO the code of R272. -/
def State.rangeFaults (s : State) (k : Nat) (write aligned : Bool) (va n : Nat) : List Cause :=
  (match (s.xlateRange k (s.access k write) va n).2 with
   | .inl (c, a) => if c = xHeld then [] else [{ code := 4, addr := BitVec.ofNat 64 a, info := BitVec.ofNat 64 c }]
   | .inr _ => [])
  ++ (if aligned && va % n != 0 then [{ code := 5, addr := BitVec.ofNat 64 va }] else [])

/-- A load of `n` bytes through the cache (R138, R287). -/
def State.loadDev (s : State) (k : Nat) (va n : Nat) : Rd :=
  match s.xlateRange k (s.access k false) va n with
  | (s, .inr segs) => s.readSegs k (s.allocDemand k) segs
  | (s, .inl _) => ⟨s, List.replicate n 0, false, none⟩

/-- A store of bytes through the cache (R138, R288). -/
def State.storeDev (s : State) (k : Nat) (va : Nat) (data : List Byte) (poison : Bool) : State :=
  match s.xlateRange k (s.access k true) va data.length with
  | (s, .inr segs) => s.writeSegs k poison segs data
  | (s, .inl _) => s

/-- LD (R137, R138, R280): a poisoned sector raises POISON_USE, and masked delivers the value. -/
def execLd (i : Issue) (wd : LoadWidth) (s : State) : Host.Outcome State Fault Refusal :=
  let k := i.core.val
  let n := loadBytes wd
  s.coreStep i (.ld i wd)
    { ipop := 1, ipush := 1
      faults := fun s =>
        let va := (s.itop k 0).toNat
        let f := s.rangeFaults k false true va n
        if f.isEmpty && (s.loadWait k va n).isNone && (s.loadDev k va n).poison then [{ code := 8, addr := BitVec.ofNat 64 va }] else f
      probe := fun c s => if c = 8 then (s.loadDev k (s.itop k 0).toNat n).st else s.probe k false (s.itop k 0).toNat n
      masked := fun _ s => (s.ipop k 1).ipush k 0
      wait := fun s => s.loadWait k (s.itop k 0).toNat n
      run := fun s =>
        let r := s.loadDev k (s.itop k 0).toNat n
        (r.st.ipop k 1).ipush k (loadExtend wd (leNat r.bytes)) }

/-- ST (R137, R138): I:( v addr → ). -/
def execSt (i : Issue) (wd : StoreWidth) (s : State) : Host.Outcome State Fault Refusal :=
  let k := i.core.val
  let n := storeBytes wd
  s.coreStep i (.st i wd)
    { ipop := 2
      faults := fun s => s.rangeFaults k true true (s.itop k 0).toNat n
      probe := fun _ s => s.probe k true (s.itop k 0).toNat n
      masked := fun _ s => s.ipop k 2
      wait := fun s => s.storeWait k (s.itop k 0).toNat n
      run := fun s => (s.storeDev k (s.itop k 0).toNat (leBytes n (s.itop k 1).toNat) false).ipop k 2 }

/-- FLD (R112, R137): the slot takes the poison of the memory read. -/
def execFld (i : Issue) (wd : FloatWidth) (s : State) : Host.Outcome State Fault Refusal :=
  let k := i.core.val
  let n := widthOf wd / 8
  s.coreStep i (.fld i wd)
    { ipop := 1, vpush := 1
      faults := fun s => s.rangeFaults k false true (s.itop k 0).toNat n
      probe := fun _ s => s.probe k false (s.itop k 0).toNat n
      masked := fun _ s => (s.ipop k 1).vpush k zeroSlot
      wait := fun s => s.loadWait k (s.itop k 0).toNat n
      run := fun s =>
        let r := s.loadDev k (s.itop k 0).toNat n
        (r.st.ipop k 1).vpush k (scalarSlot (8 * n) (leNat r.bytes) r.poison) }

/-- FST (R112, R137): a poisoned scalar writes poison (R280). -/
def execFst (i : Issue) (wd : FloatWidth) (s : State) : Host.Outcome State Fault Refusal :=
  let k := i.core.val
  let n := widthOf wd / 8
  s.coreStep i (.fst i wd)
    { ipop := 1, vpop := 1
      faults := fun s => s.rangeFaults k true true (s.itop k 0).toNat n
      probe := fun _ s => s.probe k true (s.itop k 0).toNat n
      masked := fun _ s => (s.ipop k 1).vpop k 1
      wait := fun s => s.storeWait k (s.itop k 0).toNat n
      run := fun s =>
        ((s.storeDev k (s.itop k 0).toNat (leBytes n (s.scalar k 0 (8 * n))) ((s.vtop k 0).poison.getLsbD 0)).ipop k 1).vpop k 1 }

/-! ## Core data memory -/

/-- The control unit's access meets other agents at its bank: CORE_DMEM_CONFLICT counts the cycles it waits, a free value (R129, R532; log 30). -/
def State.bankWait (s : State) (k : Nat) : State := s.waitCycles (.cu k) 0x4A8

/-- PRIVILEGE, MISALIGNED and DMEM_RANGE of an access to core data memory (R115, R127, R138): at user level every byte must lie below UTOP. -/
def State.dmemFaults (s : State) (k a n : Nat) : List Cause :=
  (if !s.priv k && decide (s.reg (.cu k) 0x420 < a + n) then [{ code := 1 }] else [])
  ++ (if a % n ≠ 0 then [{ code := 5, addr := BitVec.ofNat 64 a }] else [])
  ++ (if dmemSize < a + n then [{ code := 6, addr := BitVec.ofNat 64 a }] else [])

/-- DLD (R137): as LD, from core data memory. -/
def execDld (i : Issue) (wd : LoadWidth) (s : State) : Host.Outcome State Fault Refusal :=
  let k := i.core.val
  let n := loadBytes wd
  s.coreStep i (.dld i wd)
    { ipop := 1, ipush := 1
      faults := fun s =>
        let a := (s.itop k 0).toNat
        s.dmemFaults k a n ++ (if s.dmemPoison k a n then [{ code := 8 }] else [])
      masked := fun c s => if c = 1 then s else (s.ipop k 1).ipush k 0
      run := fun s => ((s.ipop k 1).ipush k (loadExtend wd (s.dmemNat k (s.itop k 0).toNat n))).bankWait k }

/-- DST (R137): as ST, to core data memory. -/
def execDst (i : Issue) (wd : StoreWidth) (s : State) : Host.Outcome State Fault Refusal :=
  let k := i.core.val
  let n := storeBytes wd
  s.coreStep i (.dst i wd)
    { ipop := 2
      faults := fun s => s.dmemFaults k (s.itop k 0).toNat n
      masked := fun c s => if c = 1 then s else s.ipop k 2
      run := fun s => ((s.dmemWriteP k (s.itop k 0).toNat (leBytes n (s.itop k 1).toNat) false).ipop k 2).bankWait k }

/-- FDLD (R137): as FLD, from core data memory. -/
def execFdld (i : Issue) (wd : FloatWidth) (s : State) : Host.Outcome State Fault Refusal :=
  let k := i.core.val
  let n := widthOf wd / 8
  s.coreStep i (.fdld i wd)
    { ipop := 1, vpush := 1
      faults := fun s => s.dmemFaults k (s.itop k 0).toNat n
      masked := fun c s => if c = 1 then s else (s.ipop k 1).vpush k zeroSlot
      run := fun s =>
        let a := (s.itop k 0).toNat
        ((s.ipop k 1).vpush k (scalarSlot (8 * n) (s.dmemNat k a n) (s.dmemPoison k a n))).bankWait k }

/-- FDST (R137): as FST, to core data memory. -/
def execFdst (i : Issue) (wd : FloatWidth) (s : State) : Host.Outcome State Fault Refusal :=
  let k := i.core.val
  let n := widthOf wd / 8
  s.coreStep i (.fdst i wd)
    { ipop := 1, vpop := 1
      faults := fun s => s.dmemFaults k (s.itop k 0).toNat n
      masked := fun c s => if c = 1 then s else (s.ipop k 1).vpop k 1
      run := fun s =>
        (((s.dmemWriteP k (s.itop k 0).toNat (leBytes n (s.scalar k 0 (8 * n))) ((s.vtop k 0).poison.getLsbD 0)).ipop k 1).vpop k 1).bankWait k }

end Sys2Proof.Machine
end

