-- ==== Sys2Proof/Machine/AeOps.lean ====
section
/-! DEFINITION. Descriptors: their fields, rows and addresses, the sorting frame, rows on their way, faults and completion (R25, R257 to R269, R275 to R285, R296, R299, R321). -/
namespace Sys2Proof.Machine

/-! ## Fields (R260, R267) -/

/-- Bits of word `w` of a descriptor. -/
def wordBits (l : List W64) (w lo n : Nat) : Nat := bits (l.getD w 0).toNat lo n
/-- Bits of a descriptor's word. -/
def Desc.bits_ (d : Desc) (w lo n : Nat) : Nat := wordBits d.words w lo n
/-- KIND: 0 LOAD, 1 STORE, 2 GATHER, 3 PREFETCH. -/
def Desc.kind (d : Desc) : Nat := d.bits_ 0 0 4
/-- QUEUE. -/
def Desc.queueNo (d : Desc) : Nat := d.bits_ 0 4 4
/-- FMT of a stream. -/
def Desc.fmt (d : Desc) : Nat := if d.kind = 2 then 0 else d.bits_ 0 8 2
/-- ALLOC. -/
def Desc.alloc (d : Desc) : Bool := d.bits_ 0 10 1 == 1
/-- Dimension counts, the first NDIM_M1 + 1. -/
def Desc.counts (d : Desc) : List Nat :=
  [d.bits_ 2 0 32, d.bits_ 2 32 32, d.bits_ 3 0 32, d.bits_ 3 32 32].take (d.bits_ 0 11 2 + 1)
/-- Byte strides, signed. -/
def Desc.strides (d : Desc) : List Int :=
  [sext (d.bits_ 4 0 32) 32, sext (d.bits_ 4 32 32) 32, sext (d.bits_ 5 0 32) 32, sext (d.bits_ 5 32 32) 32]
/-- TSTRIDE. -/
def Desc.tstride (d : Desc) : Int := sext (d.bits_ 6 0 32) 32
/-- BASE. -/
def Desc.base (d : Desc) : Nat := d.bits_ 1 0 48
/-- Bytes of a gather element. -/
def Desc.esize (d : Desc) : Nat := 2 ^ (d.bits_ 0 11 2 + 1)
/-- NIDX. -/
def Desc.nidx (d : Desc) : Nat := d.bits_ 3 0 32
/-- Rows: the product of the counts, or the groups of a gather (R261, R268). -/
def Desc.rows (d : Desc) : Nat :=
  if d.kind = 2 then (d.nidx + 15) / 16 else d.counts.foldl (· * ·) 1
/-- WSYNC_EN and WSYNC. -/
def Desc.wsync (d : Desc) : Option Nat := if d.bits_ 6 44 1 = 1 then some (d.bits_ 6 32 12) else none
/-- ASYNC_EN and ASYNC. -/
def Desc.async (d : Desc) : Option Nat := if d.bits_ 0 63 1 = 1 then some (d.bits_ 0 51 12) else none

/-- The field rules of LOAD, STORE and PREFETCH (R260, R262). -/
def streamLegal (l : List W64) : Bool :=
  let f := wordBits l
  let kind := f 0 0 4
  let fmt := f 0 8 2
  let nd := f 0 11 2 + 1
  let cs := [f 2 0 32, f 2 32 32, f 3 0 32, f 3 32 32]
  let rb := f 0 16 9
  (match kind with
   | 0 => decide (f 0 4 4 < 8)
   | 1 => decide (f 0 4 4 < 4) && f 0 10 1 == 0 && f 0 13 3 == 0 && f 0 25 10 == 0 && f 0 35 16 == 0
   | _ => f 0 4 4 == 0 && fmt == 0 && f 0 10 1 == 0 && f 0 35 16 == 0)
  && fmt != 3 && decide (f 0 13 3 ≤ 4) && decide (1 ≤ rb) && decide (rb ≤ 256) && (fmt == 0 || rb == 256)
  && (fmt != 0 || f 0 35 16 == 0) && f 1 48 16 == 0
  && (cs.take nd).all (fun c => decide (1 ≤ c)) && (cs.drop nd).all (fun c => c == 0)
  && decide ((cs.take nd).foldl (· * ·) 1 ≤ 2 ^ 32) && f 6 45 19 == 0 && f 7 0 64 == 0

/-- The field rules of GATHER (R267). -/
def gatherLegal (l : List W64) : Bool :=
  let f := wordBits l
  decide (f 0 4 4 < 8) && f 0 8 2 == 0 && f 0 13 12 == 0 && f 0 35 16 == 0 && f 1 48 16 == 0
  && f 2 48 16 == 0 && f 2 0 2 == 0 && decide (1 ≤ f 3 0 32) && f 3 32 32 == 0 && f 4 32 32 == 0
  && f 5 0 64 == 0 && f 6 0 32 == 0 && f 6 45 19 == 0 && f 7 0 64 == 0

/-- Whether AEPOST accepts the eight words (R257). -/
def descLegal (l : List W64) : Bool :=
  match wordBits l 0 0 4 with
  | 0 => streamLegal l
  | 1 => streamLegal l
  | 2 => gatherLegal l
  | 3 => streamLegal l
  | _ => false

/-! ## Rows (R261, R262, R268) -/

/-- The index of row `r` in each dimension, the fastest first. -/
def rowIndices : List Nat → Nat → List Nat
  | [], _ => []
  | c :: cs, r => r % c :: rowIndices cs (r / c)

/-- The tag of row `r`. -/
def Desc.tag (d : Desc) (r : Nat) : Nat :=
  if d.kind = 2 then (d.bits_ 0 25 10 + r) % 1024
  else if d.bits_ 0 13 3 = 4 then d.bits_ 0 25 10
  else (d.bits_ 0 25 10 + (rowIndices d.counts r).getD (d.bits_ 0 13 3) 0) % 1024

/-- The sum of indices times strides. -/
def dotStrides : List Nat → List Int → Int
  | i :: is, s :: ss => i * s + dotStrides is ss
  | _, _ => 0

/-- The address of row `r` with tag `t`, in 64 bits (R261). -/
def Desc.rowVa (d : Desc) (r t : Nat) : Nat :=
  wrapNat (d.base + dotStrides (rowIndices d.counts r) d.strides + t * d.tstride) 64

/-- Bytes a LOAD or a PREFETCH first asks for in a row (R263, R265). -/
def Desc.rowLen (d : Desc) : Nat :=
  match d.fmt with | 0 => d.bits_ 0 16 9 | 1 => 192 | _ => 128

/-! ## Overlap of rows (R299; log 48) -/

/-- The least and greatest offsets that dimensions (count, stride) reach. -/
def extents : List (Nat × Int) → Int × Int
  | [] => (0, 0)
  | (c, st) :: r =>
    let (lo, hi) := extents r
    let e : Int := ((c : Int) - 1) * st
    (lo + min 0 e, hi + max 0 e)

/-- Whether some row numbered `from_` or above has bytes in lo .. hi: dimensions slowest first with the weight of each index in the row number. -/
def rowHits (lo hi len from_ : Int) : List (Nat × Int × Int) → Int → Int → Bool
  | [], base, idx => decide (base < hi) && decide (lo < base + len) && decide (from_ ≤ idx)
  | (c, st, w) :: r, base, idx =>
    if st = 0 then rowHits lo hi len from_ r base (idx + ((c : Int) - 1) * w)
    else
      let (mn, mx) := extents (r.map (fun e => (e.1, e.2.1)))
      let a := (lo - len - mx - base) / st
      let b := (hi - mn - base) / st
      let first := clampInt (min a b - 1) 0 c
      let last := clampInt (max a b + 2) 0 c
      (List.range (last - first).toNat).any (fun j => rowHits lo hi len from_ r (base + (first + j) * st) (idx + (first + j) * w))

/-- Bytes of memory a row of a stream takes up at its address. -/
def Desc.span (d : Desc) : Nat := if d.fmt = 2 then 256 else d.rowLen

/-- Whether a stream descriptor still has a row, from row `from_` on, that touches va .. va + n: a STORE's rows at any tag its entries may carry. -/
def Desc.touches (d : Desc) (from_ va n : Nat) : Bool :=
  if d.kind = 2 then false
  else
    let cs := d.counts
    let ws := (List.range cs.length).map (fun i => ((cs.take i).foldl (· * ·) 1 : Nat))
    let dims := ((cs.zip d.strides).zip ws).map (fun e => (e.1.1, e.1.2, (e.2 : Int)))
    if d.tstride = 0 then rowHits va ((va : Int) + n) d.span from_ dims.reverse d.base 0
    else (List.range 1024).any (fun t => rowHits va ((va : Int) + n) d.span from_ dims.reverse (d.base + t * d.tstride) 0)

/-- Descriptors of a core. -/
def State.desc (s : State) (k n : Nat) : Option Desc := ((s.ae k).descs.find? (fun e => e.1 == n)).map (·.2)
/-- Replace a descriptor. -/
def State.setDesc (s : State) (k n : Nat) (d : Desc) : State := s.modAe k (fun a => { a with descs := tset a.descs n d })

/-- Whether an older STORE still has a row that overlaps va .. va + n and has not come to the frame (R299 item 2). -/
def State.olderStore (s : State) (k seq va n : Nat) : Bool :=
  (s.ae k).descs.any (fun e => decide (e.2.seq < seq) && e.2.kind == 1 && !e.2.aborted && e.2.touches e.2.done va n)

/-- Whether a compressed LOAD may still ask for the second sector of a row: a first sector of it has not returned (R265). -/
def Ae.secondOpen (a : Ae) (n : Nat) (d : Desc) : Bool :=
  d.fmt == 2 && (a.frame ++ a.again ++ a.slots).any (fun r => r.desc == some n && decide (r.at_ < 128))

/-- Whether an older reading descriptor still has a read to come that overlaps va .. va + n: a row to translate, or the second sector of a translated one; where a GATHER's elements lie is known once they are all translated (R299 item 2). -/
def State.olderRead (s : State) (k seq va n : Nat) : Bool :=
  (s.ae k).descs.any (fun e => decide (e.2.seq < seq) && !e.2.aborted
    && (if e.2.kind = 2 then decide (e.2.translated < e.2.rows)
        else e.2.kind != 1 && e.2.touches (if (s.ae k).secondOpen e.1 e.2 then e.2.done else e.2.translated) va n))

/-! ## Order among descriptors of one queue (R258) -/

/-- The queue of a descriptor in the order of R307; none for a PREFETCH. -/
def Desc.queue (d : Desc) : Option Nat :=
  match d.kind with
  | 0 => some d.queueNo
  | 1 => some (8 + d.queueNo)
  | 2 => some d.queueNo
  | _ => none

/-- Whether a descriptor has issued its last request. -/
def State.issuedLast (s : State) (k n : Nat) (d : Desc) : Bool :=
  let a := s.ae k
  !(a.frame ++ a.again).any (fun r => r.desc == some n) &&
  (if d.kind = 1 then d.done == d.rows
   else (d.aborted || d.translated == d.rows) && !a.secondOpen n d)

/-- Whether every earlier descriptor of the same queue satisfies `p`. -/
def State.earlierAll (s : State) (k : Nat) (d : Desc) (p : Nat → Desc → Bool) : Bool :=
  match d.queue with
  | none => true
  | some q => (s.ae k).descs.all (fun e => !(decide (e.2.seq < d.seq) && e.2.queue == some q) || p e.1 e.2)

/-- Rows an AQ has promised to descriptors in flight (R263). -/
def State.reserved (s : State) (k q : Nat) : Nat :=
  (s.ae k).descs.foldl (fun n e =>
    if e.2.queue = some q ∧ e.2.kind ≠ 1 then n + (e.2.translated - e.2.done) + (if e.2.kind = 2 ∧ 0 < e.2.elem ∧ e.2.done ≤ e.2.translated then 1 else 0) else n) 0

/-! ## Conditions common to the events of an access engine -/

/-- Whether a core's access engine runs at all (R61, R509). -/
def State.aeRuns (s : State) (k : Nat) : Bool := s.pwr.ready && s.siteOf k != 0xFF && !s.frozen (.ae k)

/-- Whether it starts new requests: not while the detector has frozen the context (R334). -/
def State.aeStarts (s : State) (k : Nat) : Bool := s.aeRuns k && !s.ctxFrozen k

/-! ## Requests (R275 to R278) -/

/-- Requests of a translated row: one for each 512-byte line (R275). -/
def segRequests (n row at_ : Nat) (alloc : Bool) : List Seg → List Req
  | [] => []
  | g :: r =>
    (lineCuts g.pa g.len).map (fun p => { desc := some n, row := row, at_ := at_ + (p.1 - g.pa), va := g.va + (p.1 - g.pa), pa := p.1, len := p.2, na := g.na, alloc := alloc })
      ++ segRequests n row (at_ + g.len) alloc r

/-- Whether the sorting frame has room for `n` requests of a translation: translation stalls while it has not (R276). -/
def State.frameRoom (s : State) (k n : Nat) : Bool := (s.ae k).again.isEmpty && decide ((s.ae k).frame.length + n ≤ 32)

/-- Whether every request in the frame goes to one bank (R278). -/
def Ae.hot (a : Ae) : Bool :=
  match a.frame with
  | [] => false
  | r :: t => t.all (fun q => bankOf q.place == bankOf r.place)

/-- The request the frame issues in region cycle `c` (R276 to R278): its place in the frame. -/
def State.chooseRequest (s : State) (k c : Nat) : Option Nat :=
  let a := s.ae k
  let l := a.frame
  let okay := fun (i : Nat) (p : Req → Bool) => match l[i]? with | some r => p r && s.eligible k (l.take i) r | none => false
  let first := fun (p : Req → Bool) => (List.range l.length).find? (fun i => okay i p)
  match first (fun r => decide (r.born + 256 ≤ c)) with
  | some i => some i
  | none =>
    if a.hot then
      let key : Nat → Nat × Nat := fun i => match l[i]? with | some r => (pageOf r.place, r.place / 512) | none => (0, 0)
      (List.range l.length).foldl (fun (b : Option Nat) i =>
        if !okay i (fun _ => true) then b else match b with
          | none => some i
          | some j => if (key i).1 < (key j).1 ∨ ((key i).1 = (key j).1 ∧ (key i).2 < (key j).2) then some i else b) none
    else
      match first (fun r => (a.openPage.find? (fun e => e.1 == bankOf r.place)).map (·.2) == some (pageOf r.place)) with
      | some i => some i
      | none => first (fun _ => true)

/-! ## K12 rows (R84, R85, R265, R266) -/

/-- The 128 encodings of an uncompressed K12 row. -/
def k12Values (b : List Byte) : List Nat := let v := leNat (b.take 192); (List.range 128).map (fun i => bits v (12 * i) 12)

/-- Quads a QMASK stores. -/
def quads (mask : Nat) : Nat := ((List.range 32).filter (fun q => mask.testBit q)).length

/-- The encodings of a compressed row: its quads from `b`, quad after quad. -/
def unpackQuads (mask : Nat) : List Nat → List Byte → List Nat
  | [], _ => []
  | q :: r, b =>
    if mask.testBit q then
      let v := leNat (b.take 6)
      [bits v 0 12, bits v 12 12, bits v 24 12, bits v 36 12] ++ unpackQuads mask r (b.drop 6)
    else [0, 0, 0, 0] ++ unpackQuads mask r b

/-- Decompress a slot (R85). -/
def decompress (b : List Byte) : List Nat := unpackQuads (leNat (b.take 4)) (List.range 32) (b.drop 4)

/-- Compress 128 encodings: the bytes of the row (R85). -/
def compress (vs : List Nat) : List Byte :=
  let qs := chunksOf 4 32 vs
  let keep := qs.map (fun q => q.any (fun v => v != 0))
  u32 (packBits keep) ++ (qs.filter (fun q => q.any (fun v => v != 0))).flatMap (fun q => leBytes 6 (packWords 12 q))

/-- Widen one K12 encoding from scale SE to scale QSE (R83, R265). -/
def widenK12 (se qse : Int) (v : Nat) : FRes :=
  if se = qse then ⟨k12to16 v, 0⟩ else kOfNum 10 (numScale (se - qse) (kNum 6 v))

/-- The entry row a LOAD pushes for the bytes it received, and whether widening left the range (R263, R265). -/
def Desc.loadRow (d : Desc) (b : List Byte) : Nat × Bool :=
  if d.fmt = 0 then (leNat b, false)
  else
    let vs := if d.fmt = 1 then k12Values b else decompress b
    let rs := vs.map (widenK12 (sext (d.bits_ 0 35 8) 8) (sext (d.bits_ 0 43 8) 8))
    (packWords 16 (rs.map (·.v)), rs.any (fun r => r.fl != 0))

/-- The bytes a STORE writes for an entry (R264, R266). -/
def Desc.storeBytes (d : Desc) (row : RowBits) : List Byte :=
  match d.fmt with
  | 0 => leBytes (d.bits_ 0 16 9) row.toNat
  | 1 => leBytes 192 row.toNat
  | _ => compress (k12Values (leBytes 192 row.toNat))

/-! ## Faults (R281 to R285) -/

/-- Stop a descriptor on a fault: the record, DESC_FAULT, the cause (R281 to R283). -/
def State.descStop (s : State) (k n : Nat) (d : Desc) (r : FaultRec) : State :=
  let s := s.setDesc k n { d with stopped := true }
  let s := s.modAe k (fun a => { a with frecs := tset a.frecs n r })
  (s.raise (.ae k) 0x10 4).pendCause k { code := if r.gather then 16 else 15, addr := r.va.setWidth 64, info := BitVec.ofNat 64 n }

/-- Translate a row's range piece by piece: what can be accessed, the first failure. MISALIGN precedes the walk (R265, R272). -/
def State.xlateOpen (s : State) (k : Nat) (acc : Access) : List (Nat × Nat) → State × List Seg × Option (Nat × Nat)
  | [] => (s, [], none)
  | (va, n) :: r =>
    let (s, x) := s.xlate k acc va
    let (s, l, f) := s.xlateOpen k acc r
    match x with
    | .inl c => (s, l, some (c, va))
    | .inr p => (s, ⟨va, p.pa, n, p.na⟩ :: l, f)

/-- Translate a stream row. -/
def State.xlateRow (s : State) (k : Nat) (d : Desc) (write : Bool) (va n : Nat) : State × List Seg × Option (Nat × Nat) :=
  if d.fmt = 2 ∧ va % 256 ≠ 0 ∧ va < 2 ^ 48 then (s, [], some (xMisalign, va))
  else s.xlateOpen k ⟨d.user, write⟩ (pageCuts (n / 2 ^ 21 + 2) va n)

/-- The cause of a descriptor whose identifier is unbound (R320, R321). -/
def State.descUnbound (s : State) (k ident : Nat) : State :=
  if s.masked k 14 then s.raise (.sync (regionOf k)) 0 1
  else s.pendCause k { code := 14, info := BitVec.ofNat 64 ident }

/-- Remove a descriptor that has completed: its ASYNC arrival, its COMPLETION record (R259, R284, R321). -/
def State.descDone (s : State) (k n : Nat) (d : Desc) : State :=
  let s := s.modAe k (fun a => { a with descs := tdel a.descs n })
  let ctx := s.ctxByte k
  if d.aborted then (s.raise (.ae k) 0x10 3).completion (.ae k) ctx 0 n 15
  else
    let s := match d.async with
      | none => s
      | some id =>
        let s := match s.objOf (s.coreCtx k) id with
          | some _ => s
          | none => s.descUnbound k id
        s.arriveOn (regionOf k) ctx id 1 (srcCode 1 (16 * k + n))
    (s.act k).completion (.ae k) ctx 0 n 2

end Sys2Proof.Machine
end

