-- ==== Sys2Proof/Machine/AccessEngine.lean ====
section
/-! DEFINITION. The instructions and the events of the access engine (R256 to R269, R273, R276, R282 to R285, R287, R294, R551). -/
namespace Sys2Proof.Machine

/-! ## Instructions (R256) -/

/-- The eight words on the stack, D0 deepest. -/
def State.postWords (s : State) (k : Nat) : List W64 := (List.range 8).map (fun j => s.itop k (7 - j))

/-- The lowest free descriptor number (R257). -/
def State.freeDesc (s : State) (k : Nat) : Option Nat := (List.range 16).find? (fun n => (s.desc k n).isNone)

/-- A descriptor's WSYNC wait begins: its identifier is translated now; an unbound one is taken as satisfied (R258, R321). -/
def State.descWait (s : State) (k : Nat) (h : k < 128) (n : Nat) (d : Desc) : State :=
  match d.wsync with
  | none => s
  | some id =>
    match s.objOf (s.coreCtx k) id with
    | some o => (s.setDesc k n { d with waiting := true }).addWait (.desc ⟨k, h⟩ (BitVec.ofNat 4 n)) o
    | none => (s.setDesc k n { d with waiting := true }).descUnbound k id

/-- A posted descriptor takes its number (R257). -/
def State.postDesc (s : State) (k : Nat) (h : k < 128) (n : Nat) (words : List W64) : State :=
  let d : Desc := { words := words, user := !s.priv k, seq := (s.ae k).nextSeq, waiting := false }
  let s := s.modAe k (fun a => { a with nextSeq := a.nextSeq + 1, descs := tset a.descs n d })
  s.descWait k h n d

/-- AEPOST (R257, R260, R267): a word that breaks a format raises DESC_INVALID; while all 16 numbers are busy it waits. -/
def execAepost (i : Issue) (s : State) : Host.Outcome State Fault Refusal :=
  let k := i.core.val
  s.coreStep i (.aepost i)
    { ipop := 8, ipush := 1
      faults := fun s => match s.freeDesc k with
        | none => []
        | some n => if descLegal (s.postWords k) then [] else [{ code := 12, info := BitVec.ofNat 64 n }]
      masked := fun _ s => (s.ipop k 8).ipush k (BitVec.allOnes 64)
      wait := fun s => if (s.freeDesc k).isNone then some (.aepost, s) else if s.frozen (.ae k) then some (.memory, s) else none
      run := fun s =>
        let n := (s.freeDesc k).getD 0
        ((s.postDesc k i.core.isLt n (s.postWords k)).ipop k 8).ipush k (BitVec.ofNat 64 n) }

/-- AEWAIT (R256, R257): issues only when descriptor n is not busy. -/
def execAewait (i : Issue) (s : State) : Host.Outcome State Fault Refusal :=
  let k := i.core.val
  s.coreStep i (.aewait i)
    { ipop := 1
      wait := fun s => if (s.desc k ((s.itop k 0).toNat % 16)).isSome then some (.descriptors, s) else none
      run := fun s => s.ipop k 1 }

/-- A prefetch of the sector that holds `va`; a failed translation drops it (R269, R294). -/
def State.prefetchAt (s : State) (k : Nat) (user : Bool) (desc : Option Nat) (va : Nat) : State :=
  match s.xlate k ⟨user, false⟩ va with
  | (s, .inr p) => (s.startPrefetch k desc (p.pa / 128) p.na).act k
  | (s, .inl _) => s

/-- The requests of prefetches at some addresses: the sectors that are mapped and not dropped (R269, R294). -/
def State.prefetchSegs (s : State) (k : Nat) (user : Bool) : List Nat → List Seg
  | [] => []
  | va :: r =>
    match (s.xlate k ⟨user, false⟩ va).2 with
    | .inr p => if s.prefetchDropped k (p.pa / 128) p.na then s.prefetchSegs k user r else ⟨va / 128 * 128, p.pa / 128 * 128, 128, p.na⟩ :: s.prefetchSegs k user r
    | .inl _ => s.prefetchSegs k user r

/-- Whether the sorting frame lets these prefetches go: they hold their slots together (R276, R277, R305). -/
def State.prefetchGoes (s : State) (k : Nat) (user : Bool) (l : List Nat) : Bool :=
  let segs := s.prefetchSegs k user l
  !l.any (fun va => s.walkHeld k ⟨user, false⟩ va 1) && s.frameOpen k && s.slotsFor k (segs.map (·.pa)) && (segLines segs).all (s.readFree k)

/-- PREF (R256, R269). -/
def execPref (i : Issue) (s : State) : Host.Outcome State Fault Refusal :=
  let k := i.core.val
  s.coreStep i (.pref i)
    { ipop := 1
      wait := fun s =>
        let l := [(s.itop k 0).toNat]
        if s.prefetchGoes k (!s.priv k) l then none else some (.memory, s.readStall k (s.prefetchSegs k (!s.priv k) l))
      run := fun s => (s.prefetchAt k (!s.priv k) none (s.itop k 0).toNat).ipop k 1 }

/-- AEREC (R256, R281): supervisor only. -/
def execAerec (i : Issue) (s : State) : Host.Outcome State Fault Refusal :=
  let k := i.core.val
  s.coreStep i (.aerec i)
    { ipop := 2, ipush := 1, pre := s.supervisorOnly i
      run := fun s =>
        let w := (s.frec k ((s.itop k 1).toNat % 16)).word ((s.itop k 0).toNat % 4)
        (s.ipop k 2).ipush k (BitVec.ofNat 64 w) }

/-- AERESTART (R256, R284): supervisor only. -/
def execAerestart (i : Issue) (s : State) : Host.Outcome State Fault Refusal :=
  let k := i.core.val
  s.coreStep i (.aerestart i)
    { ipop := 2, pre := s.supervisorOnly i
      run := fun s => (s.aeRestart k ((s.itop k 1).toNat % 16) ((s.itop k 0).toNat % 2 ^ 32)).ipop k 2 }

/-! ## RESTART writes (R284, R308) -/

/-- BAR0 offset of a RESTART word. -/
def State.restartAt (s : State) (k n : Nat) : Nat := s.bar0 (.ae k) + 0x110 + 32 * n

/-- RESTART_GO: GO = 1, ABORT = 0, START. -/
def execRestartGo (ag : Agent) (k : Fin 128) (n : BitVec 4) (start : BitVec 4) (s : State) : Host.Outcome State Fault Refusal :=
  .next (s.write ag (s.restartAt k.val n.toNat) (2 ^ 31 + start.toNat))

/-- RESTART_ABORT: ABORT = 1. -/
def execRestartAbort (ag : Agent) (k : Fin 128) (n : BitVec 4) (s : State) : Host.Outcome State Fault Refusal :=
  .next (s.write ag (s.restartAt k.val n.toNat) (2 ^ 30))

/-! ## A descriptor starts (R258) -/

/-- The WSYNC wait of a descriptor ends as an acquire (R258, R296, R317). -/
def State.descAcquire (s : State) (k : Nat) (h : k < 128) (n : Nat) (d : Desc) : State :=
  ((s.dropWait (.desc ⟨k, h⟩ (BitVec.ofNat 4 n))).setDesc k n { d with waiting := false }).acquire k

/-- DESCRIPTOR_START: once its WSYNC wait is over and every earlier descriptor of its queue has issued its last request. As an acquire the wait ends only after the core's earlier accesses are performed (R300, R301). -/
def execDescriptorStart (k : Fin 128) (n : BitVec 4) (s : State) : Host.Outcome State Fault Refusal :=
  .next (
    let h := k.isLt
    let k := k.val
    let n := n.toNat
    match s.desc k n with
    | none => s
    | some d =>
      if !s.aeStarts k || d.started then s
      else
        let waited := match s.waitOf (.desc ⟨k, h⟩ (BitVec.ofNat 4 n)) with
          | some e => e.woken || s.satisfied e.obj
          | none => true
        if d.waiting && (!waited || !(s.fenceWrites k).isEmpty) then s
        else
          let s := if d.waiting then s.descAcquire k h n d else s
          let d : Desc := { d with waiting := false }
          if s.earlierAll k d (fun m e => s.issuedLast k m e) then s.setDesc k n { d with started := true } else s)

/-! ## Translation (R263, R268, R269, R273, R282, R283, R285) -/

/-- One LOAD row is translated; its requests enter the frame, if it has room for them and no older STORE still writes there. -/
def State.walkLoad (s : State) (k n : Nat) (d : Desc) : State :=
  let r := d.translated
  let va := d.rowVa r (d.tag r)
  if (match d.queue with | some q => decide (64 ≤ (s.queue k q).length + s.reserved k q) | none => false) || s.olderStore k d.seq va d.span || s.walkHeld k ⟨d.user, false⟩ va d.rowLen then s
  else
    let (s, segs, f) := s.xlateRow k d false va d.rowLen
    let reqs := segs.flatMap (fun g => segRequests n r (g.va - va) d.alloc [g])
    if !s.frameRoom k reqs.length then s
    else
    let put := fun (s : State) =>
      let asm : RowAsm := ⟨List.replicate 256 0, (segs.map (·.len)).foldl (· + ·) 0, false⟩
      (s.setDesc k n { d with translated := r + 1, asm := tset d.asm r asm }).toFrame k reqs
    match f with
    | none => put s
    | some (c, a) =>
      if s.masked k 15 then put (s.raise (.ae k) 0x10 0)
      else s.descStop k n d { valid := true, cause := BitVec.ofNat 3 c, row := BitVec.ofNat 32 r, va := BitVec.ofNat 48 a }

/-- The address of an element, from its index (R268). -/
def Desc.elemVa (d : Desc) (ix : Nat) : Nat := (d.base + ix * d.bits_ 4 0 32) % 2 ^ 64

/-- Elements of group `g`. -/
def Desc.groupLen (d : Desc) (g : Nat) : Nat := min 16 (d.nidx - 16 * g)

/-- Where the index of an element lies. -/
def Desc.indexVa (d : Desc) (j : Nat) : Nat := d.bits_ 2 0 48 + 4 * j

/-- The index of an element, a request of its own that the frame lets go at once (R255; log 6): the code its translation fails with, or what it reads; else the state while the frame, its walk or an older STORE holds it. -/
def State.gatherIndex (s : State) (k : Nat) (d : Desc) (j : Nat) : Except State (State × (Nat ⊕ Nat)) :=
  match s.xlateRange k ⟨d.user, false⟩ (d.indexVa j) 4 with
  | (t, .inl (c, _)) => if c = xHeld then .error s else .ok (t, .inl c)
  | (s, .inr segs) =>
    if s.olderStore k d.seq (d.indexVa j) 4 then .error s
    else if !s.readsGo k segs then .error (s.readStall k segs)
    else
      let r := (s.readSegs k d.alloc segs)
      .ok (r.st.act k, .inr (leNat r.bytes))

/-- Elements of a group whose bytes are in the assembly row: those before `e` without a request under way (R281). -/
def State.delivered (s : State) (k n g e es : Nat) : BitVec 16 :=
  BitVec.ofNat 16 (packBits ((List.range e).map (fun j => !((s.ae k).frame ++ (s.ae k).again ++ (s.ae k).slots).any (fun q => q.desc == some n && q.row == g && q.at_ / es == j))))

/-- One gather element is translated; its request enters the frame. -/
def State.walkGather (s : State) (k n : Nat) (d : Desc) : State :=
  let g := d.translated
  let e := d.elem
  let full : Bool := match d.queue with | some q => decide (64 ≤ (s.queue k q).length + s.reserved k q) | none => false
  if (e = 0 ∧ full) || !s.frameRoom k 1 then s
  else
    let es := d.esize
    let asm : RowAsm := tget d.asm g ⟨List.replicate 256 0, 0, false⟩
    let next := fun (s : State) (asm : RowAsm) (reqs : List Req) =>
      let last := d.groupLen g ≤ e + 1
      (s.setDesc k n { d with asm := tset d.asm g asm, translated := if last then g + 1 else g, elem := if last then 0 else e + 1 }).toFrame k reqs
    let fail := fun (s : State) (ix : Bool) (c va : Nat) =>
      if s.masked k 16 then
        next (s.raise (.ae k) 0x10 1) { asm with bytes := patch asm.bytes (es * e) (List.replicate es 0) } []
      else s.descStop k n d { valid := true, cause := BitVec.ofNat 3 c, gather := true, index := ix, element := BitVec.ofNat 4 e,
                              vmask := s.delivered k n g e es, row := BitVec.ofNat 32 g, va := BitVec.ofNat 48 va }
    match s.gatherIndex k d (16 * g + e) with
    | .error s => s
    | .ok (s, .inl c) => fail s true c (d.indexVa (16 * g + e))
    | .ok (s', .inr ix) =>
      let va := d.elemVa ix
      if s.olderStore k d.seq va es || s.walkHeld k ⟨d.user, false⟩ va 1 then s
      else
      let s := s'
      if 2 ^ 48 ≤ va then fail s false xNoncanon va
      else if va % es ≠ 0 then fail s false xMisalign va
      else
        match s.xlate k ⟨d.user, false⟩ va with
        | (s, .inl c) => fail s false c va
        | (s, .inr p) =>
          next s { asm with missing := asm.missing + es }
            [{ desc := some n, row := g, at_ := es * e, va := va, pa := p.pa, len := es, na := p.na, alloc := d.alloc }]

/-- Prefetch the sectors of a row. -/
def State.prefetchRow (s : State) (k n : Nat) (d : Desc) (va : Nat) : Nat → State
  | 0 => s
  | m + 1 => (s.prefetchRow k n d va m).prefetchAt k d.user (some n) ((va / 128 + m) * 128 % 2 ^ 64)

/-- The addresses of the sectors that a row touches. -/
def rowSectors (va n : Nat) : List Nat := (List.range ((va + n - 1) / 128 - va / 128 + 1)).map (fun m => (va / 128 + m) * 128 % 2 ^ 64)

/-- One row of a PREFETCH descriptor (R269), once the frame lets its sectors go together. -/
def State.walkPrefetch (s : State) (k n : Nat) (d : Desc) : State :=
  let r := d.translated
  let va := d.rowVa r (d.tag r)
  let l := rowSectors va d.rowLen
  if s.olderStore k d.seq va d.rowLen then s
  else if !s.prefetchGoes k d.user l then s.readStall k (s.prefetchSegs k d.user l)
  else l.foldl (fun s v => s.prefetchAt k d.user (some n) v) (s.setDesc k n { d with translated := r + 1 })

/-- TRANSLATION_WALK: a descriptor's next row, or its next gather element, is translated while the sorting frame has room (R263, R268, R269, R276). -/
def execTranslationWalk (k : Fin 128) (n : BitVec 4) (s : State) : Host.Outcome State Fault Refusal :=
  .next (
    let k := k.val
    let n := n.toNat
    match s.desc k n with
    | none => s
    | some d =>
      if !s.aeStarts k || !d.started || d.waiting || d.stopped || d.aborted || decide (d.rows ≤ d.translated) || !s.lookups k then s
      else match d.kind with
        | 0 => s.walkLoad k n d
        | 2 => s.walkGather k n d
        | 3 => s.walkPrefetch k n d
        | _ => s)

/-! ## Requests and their data (R276, R287, R294, R551) -/

/-- A request that left the frame: a read takes a slot, looked up in the cache; a write meets the cache, and what misses holds a slot (R275, R287, R288, R309). -/
def State.lookUp (s : State) (k : Nat) (r : Req) : State :=
  let s := s.opens k r.place
  if r.evict then s.modAe k (fun a => { a with writes := a.writes ++ [{ parts := r.parts, evict := true, maint := r.maint }] })
  else if r.isWrite then s.writeLine k r.desc none r.parts
  else
    let on := s.cacheOn k
    let fill := if r.alloc && !r.na && on then r.sectors.filter (fun sec => ((s.cache k).sector sec).isNone) else []
    s.modAe k (fun a => { a with slots := a.slots ++ [{ r with on := on, fill := fill, dropped := false }] })

/-- The frame lets one request go (R276). -/
def State.issueRequest (s : State) (k i : Nat) (r : Req) : State :=
  (((s.modAe k (fun a => { a with frame := listDel a.frame i })).lookUp k r).refill k).act k

/-- REQUEST_ISSUE in region cycle `cyc`: the sorting frame issues at most one request a cycle, one that has a free slot (R276 to R278). A write-back goes on while lookups wait. -/
def execRequestIssue (k : Fin 128) (cyc : Nat) (s : State) : Host.Outcome State Fault Refusal :=
  .next (
    let k := k.val
    let a := s.ae k
    if !s.aeStarts k || a.frame.isEmpty || decide (cyc < a.nextIssue) then s
    else
      let s := s.modAe k (fun a => { a with nextIssue := cyc + 1 })
      let s := if a.hot then s.bump (.ae k) 0x408 1 else s
      match s.chooseRequest k cyc with
      | none => s
      | some i =>
        if s.slotsFull k then s.bump (.ae k) 0x400 1
        else match a.frame[i]? with
        | none => s
        | some r => if r.evict || s.lookups k then s.issueRequest k i r else s)

/-- Returned bytes enter their assembly row (R263, R265, R268): a compressed slot of more than 20 quads asks for its second sector. -/
def State.deliver (s : State) (k : Nat) (r : Req) (b : List Byte) (poison : Bool) : State :=
  let n := r.desc.getD 16
  match s.desc k n with
  | none => s
  | some d =>
    match (d.asm.find? (fun e => e.1 == r.row)).map (·.2) with
    | none => s
    | some x =>
      let x : RowAsm := ⟨patch x.bytes r.at_ b, x.missing - b.length, x.poison || poison⟩
      if d.fmt = 2 ∧ r.at_ = 0 ∧ 20 < quads (leNat (b.take 4)) then
        let more : Req := { r with at_ := 128, va := r.va + 128, pa := r.pa + 128, len := 128, fill := [], dropped := false }
        (s.setDesc k n { d with asm := tset d.asm r.row { x with missing := x.missing + 128 } }).toFrame k [more]
      else s.setDesc k n { d with asm := tset d.asm r.row x }

/-- The data of an issued read comes back: its sectors from the cache, the tray or memory, those it still fills are installed, a fill discarded on arrival is reported (R287, R298, R299). -/
def State.returnRead (s : State) (k : Nat) (r : Req) : State :=
  let x := s.readLine k r.on (fun sec => r.fill.contains sec) r.na r.pa r.len
  let s := if r.dropped then x.st.raise (.mc k) 0x10 2 else x.st
  s.deliver k r x.bytes x.poison

/-- READ_DATA_RETURN: the data of the read in slot `j` returns, what memory supplies once the writes it follows are accepted and its stack controller serves it (R61, R275, R287, R289, R298, R299). -/
def execReadDataReturn (k : Fin 128) (j : Nat) (s : State) : Host.Outcome State Fault Refusal :=
  .next (
    let k := k.val
    match (s.ae k).slots[j]? with
    | none => s
    | some r =>
      if !s.aeRuns k || !s.lookups k || s.behind k (s.fromMemory k r.on r.sectors) then s
      else ((s.modAe k (fun a => { a with slots := listDel a.slots j })).returnRead k r).act k)

/-- TRAY_FILL_ARRIVAL: the `j`-th prefetch in flight lands in the tray, replacing the oldest entry when it is full, or is discarded (R294, R296). -/
def execTrayFillArrival (k : Fin 128) (j : Nat) (s : State) : Host.Outcome State Fault Refusal :=
  .next (
    let k := k.val
    match (s.cache k).prefetch[j]? with
    | none => s
    | some f =>
      if !s.aeRuns k || s.frozen (.mc k) || (!f.discard && s.behind k [f.sector]) then s
      else
        let s := s.modCache k (fun c => { c with prefetch := listDel c.prefetch j })
        if f.discard then s.act k
        else
          let x := s.readPhys (.cu k) (s.ctxByte k) (f.sector * 128) 128
          (x.st.modCache k (fun c => { c with tray := (if c.tray.length < 64 then c.tray else c.tray.drop 1) ++ [⟨f.sector, x.bytes, x.poison⟩] })).act k)

/-- WRITE_ACCEPTED: the stack controller accepts the `j`-th pending write and publishes it; not before an earlier write to the same bytes, and not while it is frozen (R61, R299, R551). -/
def execWriteAccepted (k : Fin 128) (j : Nat) (s : State) : Host.Outcome State Fault Refusal :=
  .next (
    let k := k.val
    match (s.ae k).writes[j]? with
    | none => s
    | some w =>
      let before := ((s.ae k).writes.take j).any (fun v => shares v.sectors w.sectors)
      if before || w.parts.any (fun p => s.stackHeld p.pa) || !s.pwr.ready then s
      else ((s.modAe k (fun a => { a with writes := listDel a.writes j })).acceptWrite k w).act k)

/-! ## Rows (R263, R264, R268, R284) -/

/-- The next row of a LOAD or a GATHER is pushed: whole, or, of an abandoned descriptor, invalid and zero. -/
def State.pushRow (s : State) (k n : Nat) (d : Desc) : State :=
  let r := d.done
  match d.queue with
  | none => s
  | some q =>
    let mine := s.earlierAll k d (fun _ e => decide (e.rows ≤ e.done))
    if decide (d.rows ≤ r) || !mine || !s.room k q 1 then s
    else
      let put := fun (s : State) (e : QEntry) =>
        let s := s.push k q e
        let s := if e.poison then s.raise (.ae k) 0x10 5 else s
        s.setDesc k n { d with done := r + 1, asm := tdel d.asm r, translated := max d.translated (r + 1) }
      let tag := BitVec.ofNat 10 (d.tag r)
      if r < d.translated then
        match (d.asm.find? (fun e => e.1 == r)).map (·.2) with
        | some x =>
          if x.missing ≠ 0 then s
          else
            let (v, range) := d.loadRow x.bytes
            let s := if range then s.raise (.ae k) 0x10 2 else s
            put s { row := BitVec.ofNat 2048 v, valid := true, tag := tag, poison := x.poison }
        | none => if d.aborted then put s { row := 0, valid := false, tag := tag, poison := false } else s
      else if d.aborted then put s { row := 0, valid := false, tag := tag, poison := false }
      else s

/-- LOAD_ROW_PUSH (R263, R265): rows in row order, each once its bytes have arrived. -/
def execLoadRowPush (k : Fin 128) (n : BitVec 4) (s : State) : Host.Outcome State Fault Refusal :=
  .next (match s.desc k.val n.toNat with
    | some d => if d.kind = 0 && s.aeRuns k.val then s.pushRow k.val n.toNat d else s
    | none => s)

/-- GATHER_ROW_PUSH (R268). -/
def execGatherRowPush (k : Fin 128) (n : BitVec 4) (s : State) : Host.Outcome State Fault Refusal :=
  .next (match s.desc k.val n.toNat with
    | some d => if d.kind = 2 && s.aeRuns k.val then s.pushRow k.val n.toNat d else s
    | none => s)

/-- The write requests of a STORE's row: its translated parts, line by line (R275). -/
def storeRequests (n : Nat) (poison : Bool) (va : Nat) (data : List Byte) (segs : List Seg) : List Req :=
  (lineGroups (segs.flatMap (fun g => segParts poison [g] ((data.drop (g.va - va)).take g.len)))).map (fun p => { desc := some n, parts := p })

/-- Whether a STORE's row must wait: an older descriptor still reads or writes there (R299 item 2), or the frame has no room for it. -/
def State.storeHeld (s : State) (k : Nat) (d : Desc) (e : QEntry) : Bool :=
  let va := d.rowVa d.done e.tag.toNat
  let n := (d.storeBytes e.row).length
  e.valid && (s.olderRead k d.seq va n || s.olderStore k d.seq va n || !s.frameRoom k 3 || s.walkHeld k ⟨d.user, true⟩ va n)

/-- A STORE sends one popped entry to the frame (R264, R282, R285). -/
def State.storeEntry (s : State) (k n : Nat) (d : Desc) (e : QEntry) : State :=
  let next := fun (s : State) => s.setDesc k n { d with done := d.done + 1, held := none }
  if !e.valid then next s
  else
    let va := d.rowVa d.done e.tag.toNat
    let data := d.storeBytes e.row
    let (s, segs, f) := s.xlateRow k d true va data.length
    let put := fun (s : State) => (next s).toFrame k (storeRequests n e.poison va data segs)
    match f with
    | none => put s
    | some (c, a) =>
      if s.masked k 15 then put (s.raise (.ae k) 0x10 0)
      else s.descStop k n { d with held := some e } { valid := true, cause := BitVec.ofNat 3 c, row := BitVec.ofNat 32 d.done, va := BitVec.ofNat 48 a }

/-- STORE_ROW (R258, R264, R284): pops an entry of its SQ and writes the row; an abandoned STORE pops and discards. -/
def execStoreRow (k : Fin 128) (n : BitVec 4) (s : State) : Host.Outcome State Fault Refusal :=
  .next (
    let k := k.val
    let n := n.toNat
    match s.desc k n with
    | none => s
    | some d =>
      let q := 8 + d.queueNo
      let mine := s.earlierAll k d (fun _ e => decide (e.rows ≤ e.done))
      if d.kind ≠ 1 || !s.aeStarts k || !d.started || d.waiting || d.stopped || decide (d.rows ≤ d.done) || !mine || !s.lookups k then s
      else
        match d.held with
        | some e =>
          if d.aborted then s.setDesc k n { d with done := d.done + 1, held := none }
          else if s.storeHeld k d e then s
          else s.storeEntry k n d e
        | none =>
          if !s.headReady k q then s
          else match s.pop k q with
          | none => s
          | some (e, s') =>
            if d.aborted then s'.setDesc k n { d with done := d.done + 1 }
            else if s.storeHeld k d e then s
            else (s'.storeEntry k n d e).act k)

/-- DESCRIPTOR_COMPLETE (R259): its last row is pushed, or its writes are performed, or its fills have landed. -/
def execDescriptorComplete (k : Fin 128) (n : BitVec 4) (s : State) : Host.Outcome State Fault Refusal :=
  .next (
    let k := k.val
    let n := n.toNat
    match s.desc k n with
    | none => s
    | some d =>
      let busy := ((s.ae k).frame ++ (s.ae k).again ++ (s.ae k).slots).any (fun r => r.desc == some n) || (s.ae k).writes.any (fun w => w.desc == some n)
        || (s.cache k).prefetch.any (fun f => f.desc == some n)
      let waited := if d.kind = 3 then decide (d.rows ≤ d.translated) || d.aborted else decide (d.rows ≤ d.done)
      if !s.aeRuns k || !waited || busy then s else s.descDone k n d)

end Sys2Proof.Machine
end

