-- ==== Sys2Proof/Machine/Control.lean ====
section
/-! DEFINITION. Control instructions: NOP, SYSCALL, RETX, IFENCE, WAITI, RDSR, WRSR, RDPC, branches and calls (R137, R144 to R148). -/
namespace Sys2Proof.Machine

/-- NOP (R137). -/
def execNop (i : Issue) (s : State) : Host.Outcome State Fault Refusal := s.coreStep i (.nop i) {}

/-- SYSCALL (R147): always its cause; masked, a NOP with CORE_MASKED.SYSCALL. -/
def execSyscall (i : Issue) (code : BitVec 12) (s : State) : Host.Outcome State Fault Refusal :=
  s.coreStep i (.syscall i code) { pre := [{ code := 2, syscall := code }] }

/-- RETX (R358), supervisor only. -/
def execRetx (i : Issue) (s : State) : Host.Outcome State Fault Refusal :=
  s.coreStep i (.retx i) { pre := s.supervisorOnly i, run := fun s => s.retx i.core, ownPc := true }

/-- IFENCE (R141): the model fetches nothing (log 1), so only the PC moves. -/
def execIfence (i : Issue) (s : State) : Host.Outcome State Fault Refusal := s.coreStep i (.ifence i) {}

/-- WAITI (R137), supervisor only: waits until an unmasked interrupt is pending, held or not. -/
def execWaiti (i : Issue) (s : State) : Host.Outcome State Fault Refusal :=
  s.coreStep i (.waiti i)
    { pre := s.supervisorOnly i
      wait := fun s => if (s.interruptNow i.core).isSome then none else some (.waiti, s) }

/-- BUS_ERROR of a register access by a core at an offset without a register: ADDR is the BAR0 offset (R72, R146, R357). -/
def State.noRegister (s : State) (k off : Nat) : List Cause :=
  if (regInfo (.cu k) off).isNone then [{ code := 7, addr := BitVec.ofNat 64 (s.coreBase k + off) }] else []

/-- BUS_ERROR of a read that finds a parity mismatch (R59, R72). -/
def State.badParityAt (s : State) (k off : Nat) : List Cause :=
  if setHas (s.frame (.cu k)).badParity off then [{ code := 7, addr := BitVec.ofNat 64 (s.coreBase k + off) }] else []

/-- RDSR (R146): a read of the control unit frame's plain view. A parity mismatch is a bus error and freezes the control unit (R59, R60, R72). DESIGN CHOICE (log 128): the cause of that read is taken although R61 has frozen the control unit that takes it. -/
def execRdsr (i : Issue) (n : BitVec 10) (s : State) : Host.Outcome State Fault Refusal :=
  let k := i.core.val
  let off := 4 * n.toNat
  s.coreStep i (.rdsr i n)
    { ipush := 1
      pre := s.noRegister k off ++ s.badParityAt k off
      probe := fun _ s => if (s.badParityAt k off).isEmpty then s else s.parityFound (.cu k) off
      masked := fun c s => if c = 7 then s.ipush k 0 else s
      ownPc := true
      run := fun s =>
        match s.readReg (.core i.core) (.cu k) off with
        | (s, some v) => (s.ipush k (BitVec.ofNat 64 v)).skip k 4
        | (s, none) => s }

/-- WRSR (R145, R146): offsets 0x0400 and above are for the supervisor. -/
def execWrsr (i : Issue) (n : BitVec 10) (s : State) : Host.Outcome State Fault Refusal :=
  let k := i.core.val
  let off := 4 * n.toNat
  s.coreStep i (.wrsr i n)
    { ipop := 1
      pre := (if 0x400 ≤ off then s.supervisorOnly i else []) ++ s.noRegister k off
      masked := fun c s => if c = 7 then s.ipop k 1 else s
      run := fun s =>
        let v := (s.itop k 0).toNat % 2 ^ 32
        let s := s.ipop k 1
        (s.writeReg (.cu k) off 0 v).getD s }

/-- RDPC (R137). -/
def execRdpc (i : Issue) (s : State) : Host.Outcome State Fault Refusal := s.coreStep i (.rdpc i) (int0 i (fun s => (s.core i.core).pc))

/-! ## Branches and their prediction (R137, R142, R144) -/

/-- The predictor counter of an address: 2 bits, weakly not taken (1) after reset. -/
def State.predicts (s : State) (k : Nat) (pc : W64) : BitVec 2 := tget (s.core k).predictor (bits pc.toNat 2 12) 1

/-- Update the predictor of a guarded BR or CALL, and count the 6 cycles of a misprediction. DESIGN CHOICE (log 115): a branch with G = 0 names P0, which is constant, so it is not guarded for the predictor, with S = 1 neither. -/
def State.train (s : State) (i : Issue) (pc : W64) (taken : Bool) : State :=
  if i.g = 0 then s
  else
    let k := i.core.val
    let c := s.predicts k pc
    let c' : BitVec 2 := if taken then (if c = 3 then 3 else c + 1) else (if c = 0 then 0 else c - 1)
    let s := s.modCore k (fun x => { x with predictor := tset x.predictor (bits pc.toNat 2 12) c' })
    if decide (2 ≤ c.toNat) == taken then s else s.bump (.cu k) 0x4A0 6

/-- The target of BR and CALL: PC + 4 IMM (R137). -/
def branchTo (pc : W64) (imm : BitVec 20) : W64 := pc + 4 * imm.signExtend 64

/-- A guarded branch whose guard is false trains the predictor too. -/
def State.branchIssue (s : State) (i : Issue) (ins : Instr) (op : CoreOp) : Host.Outcome State Fault Refusal :=
  let k := i.core.val
  let pc := (s.core k).pc
  if s.atBoundary k && (s.boundaryCause k).isNone && !((s.core k).tileHold && !s.tilesQuiet k) && (s.predBit k i.g.toNat == i.s) then .next ((s.issue i ins op).train i pc false)
  else s.coreStep i ins op

/-- BR (R137). -/
def execBr (i : Issue) (imm : BitVec 20) (s : State) : Host.Outcome State Fault Refusal :=
  s.branchIssue i (.br i imm)
    { ownPc := true
      run := fun s =>
        let pc := (s.core i.core).pc
        (s.setPc i.core (branchTo pc imm)).train i pc true }

/-- CALL (R137). -/
def execCall (i : Issue) (imm : BitVec 20) (s : State) : Host.Outcome State Fault Refusal :=
  s.branchIssue i (.call i imm)
    { ipush := 1, ownPc := true
      run := fun s =>
        let pc := (s.core i.core).pc
        ((s.ipush i.core (pc + 4)).setPc i.core (branchTo pc imm)).train i pc true }

/-- BRI (R137): bits [1:0] of the target are ignored; it always costs 6 cycles (R144). -/
def execBri (i : Issue) (s : State) : Host.Outcome State Fault Refusal :=
  s.coreStep i (.bri i)
    { ipop := 1, ownPc := true
      run := fun s => ((s.ipop i.core 1).setPc i.core (codeAddr (s.itop i.core 0))).bump (.cu i.core) 0x4A0 6 }

/-- CALLI (R137). -/
def execCalli (i : Issue) (s : State) : Host.Outcome State Fault Refusal :=
  s.coreStep i (.calli i)
    { ipop := 1, ipush := 1, ownPc := true
      run := fun s =>
        let pc := (s.core i.core).pc
        (((s.ipop i.core 1).ipush i.core (pc + 4)).setPc i.core (codeAddr (s.itop i.core 0))).bump (.cu i.core) 0x4A0 6 }

end Sys2Proof.Machine
end

