-- ==== Sys2Proof/Machine/TileControl.lean ====
section
/-! DEFINITION. Dispatch of tile instructions: the configurations they will meet, the checks of R224 to R226 and R552, the command queues (R185, R186, R193, R196, R197, R203, R238 to R243, R254, R343). -/
namespace Sys2Proof.Machine

/-! ## What an instruction will meet at its issue (R224) -/

/-- Whether nothing dispatched to an array is still to change configurations or marks. -/
def TileArray.settled (x : TileArray) : Bool := x.cmds.isEmpty && x.clears.isEmpty

/-- The array with its view brought up to date: a settled array is seen as it stands. -/
def TileArray.freshView (x : TileArray) : TileArray :=
  if x.settled then { x with viewStores := [], viewActive := (x.wActive, x.wActShape), viewShadow := (x.wLoaded, x.wShape) } else x

/-- Configuration and mark of store `t` as the next dispatched instruction will meet them. -/
def TileArray.view (x : TileArray) (t : Nat) : W32 × Bool := tget x.viewStores t ((x.store t).cfg, (x.store t).full)

/-- Change the view of a store. -/
def TileArray.setView (x : TileArray) (t : Nat) (v : W32 × Bool) : TileArray := { x with viewStores := tset x.viewStores t v }

/-- The view of an array of a core. -/
def State.tileView (s : State) (k a : Nat) : TileArray := (s.arr k a).freshView

/-- The view after an instruction has been dispatched (R189, R201, R218); `src` is the source configuration of a TMOVE. -/
def TileArray.foresee (x : TileArray) (a : Nat) (op : TileOp) (src : W32) : TileArray :=
  match op with
  | .tcfg t cfg => x.setView t (cfg, (x.view t).2)
  | .trel t => x.setView t ((x.view t).1, false)
  | .trela =>
    { (List.range 10).foldl (fun (y : TileArray) t => y.setView t ((y.view t).1, false)) x with viewActive := (false, x.viewActive.2), viewShadow := (false, x.viewShadow.2) }
  | .tzero t => x.setView t ((x.view t).1, true)
  | .tsave _ _ _ => x
  | .trestore t _ _ cfg empty _ => x.setView t (cfg, !empty)
  | .tmove _ _ da dt => if da = a then x.setView dt (src, true) else x
  | .twload b => { x with viewShadow := (true, if b.opd.toNat < 8 then (x.view b.opd.toNat).1 else mkCfg b.km1.toNat b.nm1.toNat b.etype.toNat b.se) }
  | .tstream b => if b.swap then { x with viewActive := (true, x.viewShadow.2), viewShadow := (false, x.viewShadow.2) } else x
  | .tdrain b _ _ _ _ => if b.opd.toNat < 8 then x.setView b.opd.toNat ((x.view b.opd.toNat).1, true) else x
  | .tfill _ _ t => x.setView t ((x.view t).1, true)
  | .temit _ _ _ => x

/-- Put an instruction into the command queues of arrays. -/
def State.enqueueTile (s : State) (k : Nat) (cmd : TileCmd) (src : W32) : List Nat → State
  | [] => s
  | a :: r =>
    (s.modArr k a (fun x =>
      let y := x.freshView.foresee a cmd.op src
      { y with cmds := y.cmds ++ [cmd] })).enqueueTile k cmd src r

/-- Dispatch (R197, R196): the instruction enters its command queues in program order. -/
def State.dispatch (s : State) (k : Nat) (arrs : List Nat) (op : TileOp) : State :=
  let c := s.core k
  let src := match op with
    | .tmove sa st _ _ => ((s.tileView k sa).view st).1
    | _ => 0
  let s := s.modCore k (fun c => { c with tileSeq := c.tileSeq + 1, tileHold := s.preciseArith k })
  s.enqueueTile k ⟨op, c.tileSeq, c.pc, s.preciseArith k⟩ src arrs

/-! ## Checks at dispatch (R224 to R226, R552) -/

/-- TILE_SHAPE. -/
def tShape : Nat := 10
/-- TILE_EMPTY. -/
def tEmpty : Nat := 11
/-- A condition that fails, the cause it raises and the store it concerns (R552). -/
structure TileCond where
  bad : Bool
  code : Nat
  store : Nat

/-- The cause raised: the lowest code, and of its conditions the first (R224, R552). -/
def tileCause (a : Nat) (l : List TileCond) : List Cause :=
  let l := l.filter (·.bad)
  match l.find? (fun c => c.code == tShape), l.find? (fun c => c.code == tEmpty) with
  | some c, _ => [{ code := c.code, info := BitVec.ofNat 64 (a + 16 * c.store) }]
  | none, some c => [{ code := c.code, info := BitVec.ofNat 64 (a + 16 * c.store) }]
  | none, none => []

/-- TWLOAD: its shape (R206), its source. -/
def loadConds (x : TileArray) (b : WeightLoad) : List TileCond :=
  let t := b.opd.toNat
  let tile := decide (t < 8)
  let shape := if tile then (x.view t).1 else mkCfg b.km1.toNat b.nm1.toNat b.etype.toNat b.se
  let lim := if cfgEtype shape = 0 then 128 else 64
  [⟨decide (1 < cfgEtype shape) || decide (lim < cfgRows shape) || decide (lim < cfgCols shape), tShape, if tile then t else 0xD⟩,
   ⟨tile && !(x.view t).2, tEmpty, t⟩]

/-- TSTREAM (R225). An unloaded weight set is compared by the shape its register shows (R234; log 99). -/
def streamConds (x : TileArray) (b : Stream) : List TileCond :=
  let t := b.opd.toNat
  let tile := decide (t < 8)
  let acc := 8 + b.acc.toNat
  let ac := (x.view acc).1
  let src := (x.view t).1
  let (loaded, w) := if b.swap then x.viewShadow else x.viewActive
  let ws := if b.swap then 0xD else 0xC
  let k := if tile then cfgCols src else b.km1.toNat + 1
  let et := if tile then cfgEtype src else b.etype.toNat
  let rows := b.rows.toNat
  [⟨decide (rows = 0 ∨ 256 < rows), tShape, 0xF⟩,
   ⟨decide (cfgRows ac < b.row0.toNat + rows), tShape, acc⟩,
   ⟨decide (k ≠ cfgRows w), tShape, if tile then t else ws⟩,
   ⟨decide (et ≠ cfgEtype w), tShape, ws⟩,
   ⟨decide (cfgCols w ≠ cfgCols ac), tShape, acc⟩,
   ⟨tile && decide (cfgRows src < rows), tShape, t⟩,
   ⟨tile && !(x.view t).2, tEmpty, t⟩,
   ⟨!(x.view acc).2, tEmpty, acc⟩,
   ⟨!loaded, tEmpty, ws⟩]

/-- TDRAIN (R215, R218, R226). DESIGN CHOICE (log 144): ROWS 0, which R215 does not allow, is a TILE_SHAPE naming the accumulator. -/
def drainConds (x : TileArray) (b : Drain) : List TileCond :=
  let t := b.opd.toNat
  let tile := decide (t < 8)
  let acc := 8 + b.acc.toNat
  let ac := (x.view acc).1
  let dst := (x.view t).1
  let bt := b.btile.toNat
  let bc := (x.view bt).1
  let rows := b.rows.toNat
  let n := cfgCols ac
  [⟨decide (rows = 0 ∨ 256 < rows ∨ cfgRows ac < b.row0.toNat + rows), tShape, acc⟩,
   ⟨tile && (decide (b.fmt = 1) || decide (cfgEtype dst ≠ (if b.fmt = 2 then 1 else 0)) || decide (cfgCols dst ≠ n) || decide (cfgRows dst < rows)), tShape, t⟩,
   ⟨b.bias && (decide (cfgEtype bc ≠ 1) || decide (cfgRows bc < (n + 63) / 64) || decide (cfgCols bc < min n 64)), tShape, bt⟩,
   ⟨!(x.view acc).2, tEmpty, acc⟩,
   ⟨b.bias && !(x.view bt).2, tEmpty, bt⟩]

/-! ## The form of every tile instruction -/

/-- Whether dispatch must wait: for a full command queue, a frozen array's too, in precise mode for every earlier tile instruction, for a frozen array (R61, R197, R254, R332). -/
def State.dispatchWait (s : State) (k : Nat) (arrs : List Nat) : Option (WaitKind × State) :=
  if arrs.any (fun a => decide (16 ≤ (s.arr k a).cmds.length)) then some (.commandQueue, s)
  else if (s.preciseArith k && !s.tilesQuiet k) || arrs.any (fun a => s.frozen (.tcu k a)) then some (.fence, s)
  else none

/-- A tile instruction that enters the queues of `arrs`, pops `pops` entries, and raises what `faults` finds; a masked TILE_SHAPE or TILE_EMPTY sets SKIPPED of the array named first, and a masked fault leaves the operands in place (R224; log 47). -/
def tileOp (i : Issue) (arrs : List Nat) (pops : Nat) (faults : State → List Cause) (op : State → TileOp) : CoreOp :=
  let k := i.core.val
  { ipop := pops
    faults := faults
    masked := fun c s => if c = tShape ∨ c = tEmpty then s.flagNow k (arrs.headD 0) 4 else s
    wait := fun s => s.dispatchWait k arrs
    run := fun s => (s.dispatch k arrs (op s)).ipop k pops }

/-- Whether a tile code is reserved (R203). -/
def badTile (t : BitVec 4) : Bool := decide (10 ≤ t.toNat)

/-- TCFG (R185, R186): the configuration from the stack. -/
def execTcfg (i : Issue) (a : BitVec 2) (tile : BitVec 4) (s : State) : Host.Outcome State Fault Refusal :=
  let k := i.core.val
  let t := tile.toNat
  s.coreStep i (.tcfg i a tile)
    { tileOp i [a.toNat] 1
        (fun s =>
          let v := (s.itop k 0).toNat
          tileCause a.toNat [⟨decide (2 ^ 32 ≤ v) || !cfgValid t (BitVec.ofNat 32 v), tShape, t⟩])
        (fun s => .tcfg t (BitVec.ofNat 32 (s.itop k 0).toNat)) with reserved := badTile tile }

/-- TREL (R189). -/
def execTrel (i : Issue) (a : BitVec 2) (tile : BitVec 4) (s : State) : Host.Outcome State Fault Refusal :=
  s.coreStep i (.trel i a tile) { tileOp i [a.toNat] 0 (fun _ => []) (fun _ => .trel tile.toNat) with reserved := badTile tile }

/-- TRELA (R189, R197): it enters all four command queues. -/
def execTrela (i : Issue) (s : State) : Host.Outcome State Fault Refusal :=
  s.coreStep i (.trela i) (tileOp i [0, 1, 2, 3] 0 (fun _ => []) (fun _ => .trela))

/-- TZERO (R203, R228): accumulators only. -/
def execTzero (i : Issue) (a : BitVec 2) (tile : BitVec 4) (s : State) : Host.Outcome State Fault Refusal :=
  s.coreStep i (.tzero i a tile)
    { tileOp i [a.toNat] 0 (fun _ => tileCause a.toNat [⟨decide (tile.toNat < 8), tShape, tile.toNat⟩]) (fun _ => .tzero tile.toNat) with
      reserved := badTile tile }

/-- TQUIESCE (R197): completes when every tile instruction of the core has. -/
def execTquiesce (i : Issue) (s : State) : Host.Outcome State Fault Refusal :=
  s.coreStep i (.tquiesce i) { wait := fun s => if s.tilesQuiet i.core.val then none else some (.tquiesce, s) }

/-- Bytes of an image (R191). -/
def imageBytes (t : Nat) : Nat := if t < 8 then 0x8400 else 0x20400

/-- Faults of an image's address (R191, R193): the first and the last byte are translated. -/
def State.imageFaults (s : State) (k : Nat) (write : Bool) (va t : Nat) : List Cause :=
  (s.rangeFaults k write false va (imageBytes t)).map (fun c => if c.addr = BitVec.ofNat 64 va then c else { c with addr := BitVec.ofNat 64 (va + imageBytes t - 1) })
  ++ (if va % 1024 ≠ 0 then [{ code := 5, addr := BitVec.ofNat 64 va }] else [])

/-- The translated image. -/
def State.imageSegs (s : State) (k : Nat) (write : Bool) (va t : Nat) : List Seg :=
  match (s.xlateRange k (s.access k write) va (imageBytes t)).2 with
  | .inr l => l
  | .inl _ => []

/-- TSAVE (R191 to R193). -/
def execTsave (i : Issue) (a : BitVec 2) (tile : BitVec 4) (s : State) : Host.Outcome State Fault Refusal :=
  let k := i.core.val
  let t := tile.toNat
  let base := tileOp i [a.toNat] 1 (fun s => s.imageFaults k true (s.itop k 0).toNat t)
    (fun s => .tsave t (s.ctxByte k) (s.imageSegs k true (s.itop k 0).toNat t))
  s.coreStep i (.tsave i a tile)
    { base with
      reserved := badTile tile
      probe := fun _ s => s.probe k true (s.itop k 0).toNat (imageBytes t)
      wait := fun s => match s.dispatchWait k [a.toNat] with
        | some w => some w
        | none => if s.walkHeld k (s.access k true) (s.itop k 0).toNat (imageBytes t) then some (.memory, s) else none
      run := fun s => base.run (s.probe k true (s.itop k 0).toNat (imageBytes t)) }

/-- The header of an image, its first 64 bytes, read at dispatch without allocating (R193, R194). -/
def State.imageHead (s : State) (k va t : Nat) : Rd := s.readSegs k false (subSegs (s.imageSegs k false va t) 0 64)

/-- Whether the frame lets the read of the header go now. -/
def State.headGoes (s : State) (k va t : Nat) : Bool :=
  !s.walkHeld k (s.access k false) va (imageBytes t) && s.readsGo k (subSegs (s.imageSegs k false va t) 0 64)

/-- The header's CFG. -/
def headCfg (b : List Byte) : W32 := BitVec.ofNat 32 (leNat (b.take 4))
/-- The header's FLAGS. -/
def headFlags (b : List Byte) : Nat := leNat ((b.drop 4).take 4)

/-- TRESTORE (R191 to R193): a header it refuses is TILE_SHAPE. -/
def execTrestore (i : Issue) (a : BitVec 2) (tile : BitVec 4) (s : State) : Host.Outcome State Fault Refusal :=
  let k := i.core.val
  let t := tile.toNat
  let faults := fun (s : State) =>
    let va := (s.itop k 0).toNat
    let f := s.imageFaults k false va t
    if !f.isEmpty then f
    else if !s.headGoes k va t then []
    else
      let b := (s.imageHead k va t).bytes
      let fl := headFlags b
      tileCause a.toNat [⟨fl.testBit 1 != decide (8 ≤ t) || decide (4 ≤ fl) || !cfgValid t (headCfg b), tShape, t⟩]
  let op := fun (s : State) =>
    let va := (s.itop k 0).toNat
    let b := (s.imageHead k va t).bytes
    TileOp.trestore t (s.ctxByte k) (s.imageSegs k false va t) (headCfg b) ((headFlags b).testBit 0) (leNat ((b.drop 0x20).take 32))
  let base := tileOp i [a.toNat] 1 faults op
  s.coreStep i (.trestore i a tile)
    { base with
      reserved := badTile tile
      probe := fun _ s => s.probe k false (s.itop k 0).toNat (imageBytes t)
      wait := fun s => match s.dispatchWait k [a.toNat] with
        | some w => some w
        | none => if s.headGoes k (s.itop k 0).toNat t then none else some (.memory, s.readStall k (subSegs (s.imageSegs k false (s.itop k 0).toNat t) 0 64))
      run := fun s =>
        let o := op s
        let s := s.probe k false (s.itop k 0).toNat (imageBytes t)
        ((s.imageHead k (s.itop k 0).toNat t).st.dispatch k [a.toNat] o).ipop k 1 }

/-- TMOVE (R195, R196): it enters the queues of both arrays. -/
def execTmove (i : Issue) (sa : BitVec 2) (st : BitVec 3) (da : BitVec 2) (dt : BitVec 3) (s : State) : Host.Outcome State Fault Refusal :=
  let k := i.core.val
  s.coreStep i (.tmove i sa st da dt)
    (tileOp i (if sa = da then [sa.toNat] else [sa.toNat, da.toNat]) 0
      (fun s => tileCause sa.toNat [⟨!((s.tileView k sa.toNat).view st.toNat).2, tEmpty, st.toNat⟩])
      (fun _ => .tmove sa.toNat st.toNat da.toNat dt.toNat))

/-! ## Bundles (R236 to R243) -/

/-- TWLOAD (R206, R239). -/
def execTwload (i : Issue) (b : WeightLoad) (s : State) : Host.Outcome State Fault Refusal :=
  let k := i.core.val
  s.coreStep i (.twload i b)
    { tileOp i [b.arr.toNat] 0 (fun s => tileCause b.arr.toNat (loadConds (s.tileView k b.arr.toNat) b)) (fun _ => .twload b) with
      len := 16, reserved := !b.legal }

/-- The time a TSTART.AT has armed for an array. -/
def State.armedAt (s : State) (k a : Nat) : Option W64 := ((s.core k).armed.find? (fun e => e.1 == a)).map (·.2)

/-- TSTREAM (R211, R225, R240): held by an armed TSTART.AT until the region's postmark is there, and late when it comes to dispatch after it (R343, R344). -/
def execTstream (i : Issue) (b : Stream) (s : State) : Host.Outcome State Fault Refusal :=
  let k := i.core.val
  let a := b.arr.toNat
  let base := tileOp i [a] 0 (fun s => tileCause a (streamConds (s.tileView k a) b)) (fun _ => .tstream b)
  let held := match (s.core k).waiting with
    | some w => w.kind == .tstart
    | none => false
  s.coreStep i (.tstream i b)
    { base with
      len := 16, reserved := !b.legal
      wait := fun s =>
        let hold := match s.armedAt k a with
          | some t => decide ((s.copyOf (regionOf k)).toNat < t.toNat)
          | none => false
        if hold then some (.tstart, s) else s.dispatchWait k [a]
      run := fun s =>
        let late := match s.armedAt k a with
          | some t => decide (t.toNat < (s.copyOf (regionOf k)).toNat) && !held
          | none => false
        let s := if late then s.bump (.cu k) 0x490 1 else s
        base.run (s.modCore k (fun c => { c with armed := tdel c.armed a })) }

/-- Entries a TDRAIN takes from the stack (R241). -/
def drainPops (b : Drain) : Nat := b2n b.sesrc + b2n b.clip + b2n b.smode

/-- The record address of a TDRAIN: the deepest of its entries. -/
def State.drainRec (s : State) (k : Nat) (b : Drain) : Nat := (s.itop k (drainPops b - 1)).toNat

/-- PRIVILEGE and DMEM_RANGE of the scale record's 128 bytes (R101, R127, R243). -/
def State.recordFaults (s : State) (k : Nat) (b : Drain) : List Cause :=
  if !b.sesrc then []
  else
    let r := s.drainRec k b
    (if !s.priv k && decide (s.reg (.cu k) 0x420 < r / 128 * 128 + 128) then [{ code := 1 }] else [])
    ++ (if dmemSize ≤ r then [{ code := 6, addr := BitVec.ofNat 64 r }] else [])

/-- TDRAIN (R215, R226, R241, R243). -/
def execTdrain (i : Issue) (b : Drain) (s : State) : Host.Outcome State Fault Refusal :=
  let k := i.core.val
  let a := b.arr.toNat
  s.coreStep i (.tdrain i b)
    { tileOp i [a] (drainPops b) (fun s => s.recordFaults k b ++ tileCause a (drainConds (s.tileView k a) b))
        (fun s =>
          let factor := if b.smode then BitVec.ofNat 32 (s.itop k 0).toNat else 0
          let bounds := if b.clip then (s.itop k (b2n b.smode)).toNat else 0
          .tdrain b factor (BitVec.ofNat 32 bounds) (BitVec.ofNat 32 (bounds >>> 32)) (if b.sesrc then s.drainRec k b else 0)) with
      len := 16, reserved := !b.legal }

/-- TFILL (R205, R242): pops a queue into a tile. -/
def execTfill (i : Issue) (a : BitVec 2) (dly : BitVec 10) (opd : BitVec 5) (tile : BitVec 3) (s : State) : Host.Outcome State Fault Refusal :=
  s.coreStep i (.tfill i a dly opd tile)
    { tileOp i [a.toNat] 0 (fun _ => []) (fun _ => .tfill dly.toNat opd.toNat tile.toNat) with len := 16, reserved := !opdHead opd }

/-- TEMIT (R205, R242): pushes a tile's rows to a queue. -/
def execTemit (i : Issue) (a : BitVec 2) (dly : BitVec 10) (opd : BitVec 5) (tile : BitVec 3) (s : State) : Host.Outcome State Fault Refusal :=
  let k := i.core.val
  s.coreStep i (.temit i a dly opd tile)
    { tileOp i [a.toNat] 0 (fun s => tileCause a.toNat [⟨!((s.tileView k a.toNat).view tile.toNat).2, tEmpty, tile.toNat⟩])
        (fun _ => .temit dly.toNat opd.toNat tile.toNat) with len := 16, reserved := !opdTail opd }

end Sys2Proof.Machine
end

