-- ==== Sys2Proof/Machine/Sync.lean ====
section
/-! DEFINITION. The sync and postmark instructions, operations at their objects, wakes, timers, low-power waits, the deadlock detector and its dump (R313 to R344). -/
namespace Sys2Proof.Machine

/-! ## Instructions on sync objects (R313 to R320) -/

/-- SYNC_UNBOUND of an instruction's identifier (R320). -/
def State.unboundFault (s : State) (k : Nat) (id : W64) : List Cause :=
  if (s.objOf (s.coreCtx k) id.toNat).isNone then [{ code := 14, info := id }] else []

/-- What a masked SYNC_UNBOUND leaves: the region's flag (R320). -/
def State.unboundSkipped (s : State) (k : Nat) : State := s.raise (.sync (regionOf k)) 0 1

/-- ARRIVE, DEPART, SRESET and SIGNAL.AT: the operation enters the core's sync port as a release; `n` operands, the identifier deepest, the count beneath a time when there is one (R317, R318). -/
def portOp (i : Issue) (kind n : Nat) : CoreOp :=
  let k := i.core.val
  let id := fun (s : State) => s.itop k (n - 1)
  { ipop := n
    faults := fun s => s.unboundFault k (id s)
    masked := fun _ s => (s.ipop k n).unboundSkipped k
    wait := fun s => if 16 ≤ (s.port k).length then some (.syncPort, s) else none
    run := fun s =>
      let op : SyncOp :=
        { kind := kind, ident := (id s).toNat, obj := (s.objOf (s.coreCtx k) (id s).toNat).getD 0, n := syncN (s.itop k (n - 2))
          t := if kind = 3 then s.itop k 0 else 0, pc := (s.core k).pc, before := s.fenceWrites k }
      (s.setPort k (s.port k ++ [op])).ipop k n }

/-- ARRIVE (R313). -/
def execArrive (i : Issue) (s : State) : Host.Outcome State Fault Refusal := s.coreStep i (.arrive i) (portOp i 0 2)
/-- DEPART (R313). -/
def execDepart (i : Issue) (s : State) : Host.Outcome State Fault Refusal := s.coreStep i (.depart i) (portOp i 1 2)
/-- SRESET (R313). -/
def execSreset (i : Issue) (s : State) : Host.Outcome State Fault Refusal := s.coreStep i (.sreset i) (portOp i 2 2)
/-- SIGNAL.AT (R313, R326). -/
def execSignalAt (i : Issue) (s : State) : Host.Outcome State Fault Refusal := s.coreStep i (.signalAt i) (portOp i 3 3)

/-- Whether the wait of `w` on object `o` is over, and the state while it is not: the entry compared with the object at its arrival (R316, R323). -/
def State.syncWait (s : State) (w : Waiter) (o : Nat) : Option State :=
  let here := match s.waitOf w with
    | some e => e.obj == o
    | none => false
  let s : State := if here then s else s.dropWait w
  let s := s.addWait w o
  match s.waitOf w with
  | some e => if e.woken then none else some s
  | none => some s

/-- WAIT (R313, R316): as an acquire it first waits until the core's earlier accesses are performed, and behind the core's own operations on the object, then for the object (R301, R317, R318; log 49). -/
def execWait (i : Issue) (s : State) : Host.Outcome State Fault Refusal :=
  let k := i.core.val
  s.coreStep i (.wait i)
    { ipop := 1
      faults := fun s => s.unboundFault k (s.itop k 0)
      masked := fun _ s => ((s.ipop k 1).unboundSkipped k).acquire k
      wait := fun s =>
        let o := (s.objOf (s.coreCtx k) (s.itop k 0).toNat).getD 0
        if s.portHolds k o || !(s.fenceWrites k).isEmpty then some (.sync o, s)
        else
          (s.syncWait (.core i.core) o).map (fun s => (.sync o, s))
      run := fun s => (s.acquire k).ipop k 1 }

/-- SREAD (R313): COUNTER, without ordering; masked and unbound it pushes 0. -/
def execSread (i : Issue) (s : State) : Host.Outcome State Fault Refusal :=
  let k := i.core.val
  s.coreStep i (.sread i)
    { ipop := 1, ipush := 1
      faults := fun s => s.unboundFault k (s.itop k 0)
      masked := fun _ s => ((s.ipop k 1).ipush k 0).unboundSkipped k
      wait := fun s => if s.portHolds k ((s.objOf (s.coreCtx k) (s.itop k 0).toNat).getD 0) then some (.syncPort, s) else none
      run := fun s => (s.ipop k 1).ipush k (BitVec.ofNat 64 (s.obj ((s.objOf (s.coreCtx k) (s.itop k 0).toNat).getD 0)).counter) }

/-! ## Postmark instructions (R339, R342, R343) -/

/-- RDPM. -/
def execRdpm (i : Issue) (s : State) : Host.Outcome State Fault Refusal :=
  s.coreStep i (.rdpm i) (int0 i (fun s => s.copyOf (regionOf i.core)))

/-- SWAIT.T (R342): late when the postmark already exceeds t as it reaches issue, not when it has waited for t (R344). -/
def execSwaitT (i : Issue) (s : State) : Host.Outcome State Fault Refusal :=
  let k := i.core.val
  let held := match (s.core k).waiting with
    | some ⟨.swaitT t, _, _, _, _⟩ => some t
    | _ => none
  s.coreStep i (.swaitT i)
    { ipop := 1
      wait := fun s => if (s.copyOf (regionOf k)).toNat < (s.itop k 0).toNat then some (.swaitT (s.itop k 0), s) else none
      run := fun s =>
        let t := s.itop k 0
        let late := decide (t.toNat < (s.copyOf (regionOf k)).toNat) && held != some t
        (if late then s.bump (.cu k) 0x490 1 else s).ipop k 1 }

/-- TSTART.AT (R343): arms the array; a later one replaces an earlier. -/
def execTstartAt (i : Issue) (a : BitVec 2) (s : State) : Host.Outcome State Fault Refusal :=
  let k := i.core.val
  s.coreStep i (.tstartAt i a)
    { ipop := 1
      run := fun s =>
        let t := s.itop k 0
        (s.ipop k 1).modCore k (fun c => { c with armed := tset c.armed a.toNat t }) }

/-- TSTART_LAUNCH (R343): the TSTREAM that the core holds comes to dispatch again at postmark `now`. -/
def execTstartLaunch (k : Fin 128) (a : BitVec 2) (now : W64) (s : State) : Host.Outcome State Fault Refusal :=
  let s := s.advance now
  match (s.core k.val).waiting with
  | some ⟨.tstart, _, _, .tstream i b, _⟩ => if i.core == k && b.arr == a then execTstream i b s else .next s
  | _ => .next s

/-! ## At the object (R322 to R327) -/

/-- SYNC_OP_PERFORM: the next operation of the core's port whose release condition holds is performed at its object; a frozen core's work is abandoned (R61). -/
def execSyncOpPerform (k : Fin 128) (s : State) : Host.Outcome State Fault Refusal :=
  .next (
    if !s.pwr.ready || s.frozen (.cu k.val) then s
    else match s.nextOp k.val [] (s.port k.val) with
    | none => s
    | some (op, rest) => (s.setPort k.val rest).portAct k.val op)

/-- A timer's ARRIVE (R326). -/
def State.timerAct (s : State) (d : Nat) (t : SyncTimer) : State := s.syncAct t.obj 0 t.n (srcCode 5 d) t.ctx t.ident

/-- SYNC_TIMER_FIRE: timer `j` of a region, due by its postmark; timers due together arrive in the order they were taken. -/
def execSyncTimerFire (d : Fin 8) (j : Nat) (now : W64) (s : State) : Host.Outcome State Fault Refusal :=
  .next (
    let s := s.advance now
    let ts := tget s.sync.timers d.val []
    match ts[j]? with
    | none => s
    | some t =>
      let first := (ts.take j).all (fun u => decide (t.due.toNat < u.due.toNat))
      if decide ((s.copyOf d.val).toNat < t.due.toNat) || !first || s.frozen (.sync d.val) || !s.pwr.ready then s
      else
        let s : State := { s with sync := { s.sync with timers := tset s.sync.timers d.val (listDel ts j) } }
        s.timerAct d.val t)

/-! ## Low-power waits (R328 to R330) -/

/-- LEND_LOW_POWER_ENTRY: a waiter under LEND that has waited LEND_AFTER; SWAIT.T only while more than 1.5 us remain. -/
def execLendLowPowerEntry (k : Fin 128) (now : W64) (s : State) : Host.Outcome State Fault Refusal :=
  .next (
    let k := k.val
    let s := s.advance now
    let t := (s.copyOf (regionOf k)).toNat
    match (s.core k).waiting with
    | none => s
    | some w =>
      let kindOk := match w.kind with
        | .sync _ => true
        | .swaitT u => decide (1500 < u.toNat - t)
        | _ => false
      let after := max 1 (bits w.policy.toNat 8 12) * 100
      if w.policy.getLsbD 0 && kindOk && !w.lowPower && decide (w.since.toNat + after ≤ t) then
        s.modCore k (fun c => { c with waiting := some { w with lowPower := true } })
      else s)

/-- SWAIT_LEND_EXIT: a low-power SWAIT.T is back at full power at t - 1.5 us. -/
def execSwaitLendExit (k : Fin 128) (now : W64) (s : State) : Host.Outcome State Fault Refusal :=
  .next (
    let k := k.val
    let s := s.advance now
    match (s.core k).waiting with
    | some ⟨.swaitT t, since, policy, ins, true⟩ =>
      if t.toNat ≤ (s.copyOf (regionOf k)).toNat + 1500 then s.modCore k (fun c => { c with waiting := some ⟨.swaitT t, since, policy, ins, false⟩ }) else s
    | _ => s)

/-! ## The deadlock detector (R332 to R337) -/

/-- DETECTOR_REPORT: a region reports its span for every context that has cores there. DEDUCED (log 134): a freeze or a quarantine of the region does not stop its detector, which then sees the cores it blocks (R528). -/
def execDetectorReport (d : Fin 8) (now : W64) (s : State) : Host.Outcome State Fault Refusal :=
  .next (
    let s := s.advance now
    let d := d.val
    if !s.pwr.ready then s
    else
      let mine := (List.range 64).filter (fun c => !(s.coresOf d c).isEmpty)
      let others := tdelWhere s.sync.reports (fun e => e.1 == d)
      { s with sync := { s.sync with reports := others ++ mine.map (fun c => ((d, c), (s.copyOf d, s.spanStart d c))) } })

/-- The regions that hold a core of a context. -/
def State.regionsOf (s : State) (c : Nat) : List Nat := (List.range 8).filter (fun d => !(s.coresOf d c).isEmpty)

/-- The lead region (R334). -/
def State.lead (s : State) (c : Nat) : Nat := (s.regionsOf c).headD 0

/-- A context's area as SYNC_PMBASEc of the lead region gives it; none when nothing may be written (R337). -/
def State.pmArea (s : State) (c : Nat) : Option Nat :=
  let f := FrameId.sync (s.lead c)
  let a := s.reg f (0x100 + 8 * c) + 2 ^ 32 * s.reg f (0x104 + 8 * c)
  if a = 0 ∨ memTop < a + 0x20100 ∨ !s.rangeLent c a 0x20100 then none else some a

/-- STATE of a core in the dump's header (R335). A wait the table does not name counts as issuing (log 50). -/
def State.dumpState (s : State) (c k : Nat) : Nat :=
  if s.coreCtx k ≠ some c then 0
  else if (s.core k).loan.isSome then 12
  else match (s.core k).waiting with
    | none => 1
    | some w =>
      match w.kind with
      | .sync _ => 2
      | .vqpop => 3
      | .vqpush => 4
      | .descriptors => 5
      | .tquiesce => 6
      | .commandQueue => 7
      | .aepost => 8
      | .swaitT _ => 9
      | .waiti => 10
      | .tstart => 11
      | _ => 1

/-- The dump's header (R335). -/
def State.dumpHeader (s : State) (c reason : Nat) : List Byte :=
  let d := s.lead c
  u32 0x4D505953 ++ u32 c ++ u32 reason ++ u32 (s.reg (.sync d) 4) ++ u64 (s.copyOf d).toNat ++ u64 0
    ++ (List.range 128).map (fun k => BitVec.ofNat 8 (s.dumpState c k)) ++ List.replicate 96 0

/-- The record of one identifier (R335). -/
def State.dumpRecord (s : State) (c ident : Nat) : List Byte :=
  match s.objOf (some c) ident with
  | none => u64 0 ++ u64 4 ++ u64 0 ++ u64 0
  | some o =>
    let x := s.obj o
    let timers := ((tget s.sync.timers (objRegion o) []).filter (fun t => t.obj == o)).length
    let w := s.waiters o
    u32 x.counter ++ u32 x.target ++ u32 (b2n x.satHi + 2 * b2n x.satLo + 256 * timers) ++ u32 (w.1 + 65536 * w.2)
      ++ u32 x.lastSource.toNat ++ u32 o ++ u64 x.lastChange.toNat

/-- Write the records from `ident` on. -/
def State.writeRecords (s : State) (c addr : Nat) : Nat → State
  | 0 => s
  | n + 1 => (s.writeRecords c addr n).writePhys (.sync (s.lead c)) c (addr + 0x100 + 32 * n) (s.dumpRecord c n) false

/-- Write a whole dump: header, then the 4,096 records. -/
def State.writeDump (s : State) (c addr : Nat) (header : List Byte) : State :=
  (s.writePhys (.sync (s.lead c)) c addr header false).writeRecords c addr 4096

/-- Whether a timer is held for the objects of a context (R333). -/
def State.timersOf (s : State) (c : Nat) : Bool :=
  let ranges := (List.range 64).filterMap (fun r => s.syncRange c r)
  s.sync.timers.any (fun e => e.2.any (fun t => ranges.contains (t.obj / 64)))

/-- Whether the reports show an unbroken span longer than the window for a context (R334). -/
def State.deadlocked (s : State) (c : Nat) : Bool :=
  let rs := s.regionsOf c
  let window := bits (s.reg (.sync (s.lead c)) 4) 0 24 * 1000
  let reps := rs.map (fun d => tget s.sync.reports (d, c) (0, none))
  let start := (reps.map (fun r => match r.2 with | some t => t.toNat | none => 0)).foldl max 0
  !rs.isEmpty && decide (window ≠ 0) && !s.sync.frozen.contains c && !s.timersOf c
    && reps.all (fun r => r.2.isSome && decide (start + window ≤ r.1.toNat))

/-- DEADLOCK: the lead region freezes the context, raises the alarm and begins the dump (R334). -/
def execDeadlock (c : Fin 64) (now : W64) (s : State) : Host.Outcome State Fault Refusal :=
  .next (
    let s := s.advance now
    let c := c.val
    let d := s.lead c
    if !s.deadlocked c || !s.pwr.ready then s
    else
      let header := s.dumpHeader c 0
      let area := s.pmArea c
      let s : State := { s with sync := { s.sync with
        frozen := s.sync.frozen ++ [c]
        dumps := (match area with | some a => s.sync.dumps ++ [⟨c, a, header⟩] | none => s.sync.dumps) } }
      s.flagEvent (.sync d) 0 2 0x104 c (u8 c ++ u8 (b2n area.isNone)))

/-- SYNC_DUMP_DONE: the dump that the detector began is written, then its flag and its record follow (R334, R336). -/
def execSyncDumpDone (c : Fin 64) (s : State) : Host.Outcome State Fault Refusal :=
  .next (
    let c := c.val
    match s.sync.dumps.find? (fun x => x.ctx == c) with
    | none => s
    | some x => s.served (fun s =>
      let s := s.writeDump c x.addr x.header
      let s : State := { s with sync := { s.sync with dumps := s.sync.dumps.filter (fun y => y.ctx != c) } }
      s.flagEvent (.sync (s.lead c)) 0 3 0x205 c []))

end Sys2Proof.Machine
end

