-- ==== Sys2Proof/Machine/LinkOps.lean ====
section
/-! DEFINITION. Messages of the links: their layout, which port they take, what is outstanding, and the checks a received message passes (R430, R440 to R445). -/
namespace Sys2Proof.Machine

/-! ## Layout (R430) -/

/-- A message: its header fields and its data. -/
structure Msg where
  typ : Nat
  opt : Nat := 0
  poison : Bool := false
  len : Nat := 0
  dstId : Nat := 0
  srcId : Nat := 0
  dstRank : Nat := 0
  srcRank : Nat := 0
  job : Nat := 0
  addr : Nat := 0
  txn : Nat := 0
  corr : Nat := 0
  data : List Byte := []
  deriving DecidableEq, Repr

/-- A length rounded up to a multiple of 4. -/
def pad4 (n : Nat) : Nat := (n + 3) / 4 * 4

/-- The bytes of a message: the 32-byte header, then data padded to a multiple of 4. -/
def Msg.bytes (m : Msg) : List Byte :=
  u8 (m.typ % 16 + m.opt % 8 * 16 + b2n m.poison * 128) ++ u8 0 ++ u16 m.len ++ u16 m.dstId ++ u16 m.srcId ++ u16 m.dstRank
    ++ u16 m.srcRank ++ u16 m.job ++ u16 0 ++ u64 m.addr ++ u32 m.txn ++ u32 m.corr
    ++ m.data ++ List.replicate (pad4 m.data.length - m.data.length) 0

/-- How many data bytes follow a header: the types that carry data (R430). -/
def dataLen (b : List Byte) : Nat :=
  match fieldAt b 0 1 % 16 with
  | 0 => fieldAt b 2 2
  | 1 => fieldAt b 2 2
  | 3 => fieldAt b 2 2
  | 7 => fieldAt b 2 2
  | _ => 0

/-- A message read from its bytes. -/
def parseMsg (b : List Byte) : Msg :=
  let t := fieldAt b 0 1
  { typ := t % 16, opt := t / 16 % 8, poison := t.testBit 7, len := fieldAt b 2 2, dstId := fieldAt b 4 2 % 16384
    srcId := fieldAt b 6 2 % 16384, dstRank := fieldAt b 8 2, srcRank := fieldAt b 10 2, job := fieldAt b 12 2
    addr := fieldAt b 16 8, txn := fieldAt b 24 4, corr := fieldAt b 28 4, data := (b.drop 32).take (dataLen b) }

/-- The class of a message type: virtual channels 0 to 3, 4 for PM messages, 5 for LCTL. -/
def vcOf (typ : Nat) : Nat :=
  match typ with
  | 3 => 1 | 4 => 1 | 5 => 1 | 6 => 2 | 7 => 3 | 8 => 4 | 9 => 4 | 10 => 5 | _ => 0

/-- A message's length in 64-byte credit units (R431, R432). -/
def creditUnits (b : List Byte) : Nat := (b.length + 63) / 64

/-! ## Routes (R441, R442) -/

/-- A port's copy of a route entry: mask in [11:0], VALID in [15]. -/
def State.routeEntry (s : State) (p id : Nat) : Nat := tget s.links.routes (p, id) 0

/-- The UP ports whose own copy of the entry names them. -/
def State.candidates (s : State) (id : Nat) : List Nat :=
  (List.range 12).filter (fun p =>
    let e := s.routeEntry p id
    e.testBit 15 && e.testBit p && (s.lport p).state == 2 && !(s.lport p).closing)

/-- The mask of the ports that may carry traffic to a module. -/
def State.routeMask (s : State) (id : Nat) : Nat :=
  (List.range 12).foldl (fun m p => if (s.routeEntry p id).testBit 15 && (s.routeEntry p id).testBit p then m ||| 2 ^ p else m) 0

/-- A context's job number; 0xFFFF for no remote traffic (R440). -/
def State.jobOf (s : State) (c : Nat) : Nat := tget s.links.jobs c 0xFFFF

/-- Send a message on one of the ports its route allows; `hash` fixes the choice for a stage, otherwise the choice is free. None: it is not sent (R442). -/
def State.sendMsg (s : State) (ctx : Nat) (registered : Bool) (hash : Option Nat) (m : Msg) : Option State :=
  match s.candidates m.dstId with
  | [] => none
  | l =>
    let pick := hash.getD (Config.freeValue s.freeCtr).toNat % l.length
    let s : State := { s with freeCtr := s.freeCtr + 1 }
    some (s.enqueue (l.getD pick 0)
      { vc := vcOf m.typ, ctx := ctx, mask := s.routeMask m.dstId, registered := registered, bytes := m.bytes })

/-- A request of a context: its header with this module's identity. -/
def State.request (s : State) (ctx : Nat) (m : Msg) : Msg :=
  { m with srcId := s.links.selfId.getD 0, srcRank := s.links.rank, job := s.jobOf ctx }

/-- A response: DST_ID is the requester, the tag is returned (R430, R442). -/
def State.response (s : State) (q : Msg) (typ : Nat) : Msg :=
  { typ := typ, dstId := q.srcId, srcId := s.links.selfId.getD 0, dstRank := q.srcRank, srcRank := s.links.rank, job := q.job, txn := q.txn }

/-- The tag of EVENT messages, which no request carries: a REFUSE that returns it refuses a forwarded record (R524; log 58). -/
def eventTxn : Nat := 2 ^ 32 - 1

/-- The next transaction tag. -/
def State.takeTxn (s : State) : State × Nat :=
  ({ s with links := { s.links with nextTxn := (s.links.nextTxn + 1) % eventTxn } }, s.links.nextTxn)

/-- The bits of DST_RANK that accept any rank (R430). -/
def anyRank : Nat := 0x8000

/-! ## Reception (R432, R443, R444) -/

/-- Remove the first element that satisfies `q`, when no earlier element satisfies `block`. -/
def takeFirst {α : Type} (q block : α → Bool) : List α → Option (α × List α)
  | [] => none
  | a :: r =>
    if q a then some (a, r)
    else if block a then none
    else match takeFirst q block r with
      | some (x, t) => some (x, a :: t)
      | none => none

/-- The received message of a type that is next in its class on a port. -/
def State.nextRx (s : State) (p typ : Nat) : Option (List Byte × List (List Byte)) :=
  let t := fun (b : List Byte) => fieldAt b 0 1 % 16
  takeFirst (fun b => t b == typ) (fun b => vcOf (t b) == vcOf typ) (s.lport p).rx

/-- A port and its frame work: not frozen, the module running. -/
def State.portRuns (s : State) (p : Nat) : Bool := s.pwr.ready && !s.frozen (.port p)

/-- Take a received message out of a port's buffer: its space is free again, credit is due (R432). -/
def State.consume (s : State) (p : Nat) (b : List Byte) (rest : List (List Byte)) : State :=
  let vc := vcOf (fieldAt b 0 1 % 16)
  s.modLport p (fun x =>
    if vc < 4 then { x with rx := rest, freed := listSet x.freed vc ((x.freed.getD vc 0 + creditUnits b) % 65536), lctlDue := true }
    else { x with rx := rest })

/-- The local context of a job number (R443 item 2); 0xFFFF names none. -/
def State.ctxOfJob (s : State) (job : Nat) : Option Nat :=
  if job = 0xFFFF then none else (List.range 64).find? (fun c => s.jobOf c == job)

/-- The first two items of R443: the reason of a refusal, or the context a message is for. -/
def State.acceptHead (s : State) (m : Msg) : Nat ⊕ Nat :=
  if !m.dstRank.testBit 15 && m.dstRank % 16384 != s.links.rank then .inl 1
  else match s.ctxOfJob m.job with
    | none => .inl 2
    | some c => .inr c

/-- Why a message that has reached its module is refused (R443), or the context it is for. `n` bytes are addressed. -/
def State.acceptMsg (s : State) (m : Msg) (n : Nat) : Nat ⊕ Nat :=
  match s.acceptHead m with
    | .inl reason => .inl reason
    | .inr c =>
      if m.typ = 6 then (if (s.objOf (some c) (m.addr % 4096)).isSome then .inr c else .inl 4)
      else if !s.rangeLent c (m.addr % 2 ^ 41) n then .inl 3
      else if m.typ = 1 ∧ !(s.reg (.ce (regionOfPa (m.addr % 2 ^ 41))) 0).testBit 0 then .inl 5
      else .inr c

/-- Answer with a REFUSE, counted and flagged, which counts for the context of its JOB (R333, R443, R456, R458); without an UP port on its route none is sent. -/
def State.refuseMsg (s : State) (p : Nat) (m : Msg) (reason : Nat) : State :=
  match s.sendMsg ((s.ctxOfJob m.job).getD 0xFF) false none { s.response m 5 with opt := reason } with
  | some s => (s.raise (.port p) 0x10 4).bump (.port p) 0x130 1
  | none => s

/-- Send a response, or lose it when no port leads there. -/
def State.respond (s : State) (ctx : Nat) (m : Msg) : State := (s.sendMsg ctx false none m).getD s

/-! ## Cutting a range into messages (R449 item 4) -/

/-- Pieces of `n` bytes that do not cross a 4 KiB boundary of the remote address: offset and length. -/
def messageCuts : Nat → Nat → Nat → Nat → List (Nat × Nat)
  | 0, _, _, _ => []
  | f + 1, remote, off, n =>
    if n = 0 then []
    else
      let len := min (4096 - (remote + off) % 4096) n
      (off, len) :: messageCuts f remote (off + len) (n - len)

/-- The pieces of a whole range. -/
def cutsOf (remote n : Nat) : List (Nat × Nat) := messageCuts (n / 4096 + 2) remote 0 n

end Sys2Proof.Machine
end

