-- ==== Sys2Proof/Machine/UpeOps.lean ====
section
/-! DEFINITION. Layer descriptors and update programs: their fields, their checks, the arithmetic of one element and of a pass (R384 to R403). -/
namespace Sys2Proof.Machine

/-! ## An engine and its stack (R384, R386, R390) -/

/-- Bytes of a stack (R26). -/
def stackSize : Nat := 0x1400000000
/-- Whether a range lies in the engine's stack. -/
def inStack (e a n : Nat) : Bool := decide (e * stackSize ≤ a) && decide (a + n ≤ (e + 1) * stackSize)
/-- Whether a range lies in the engine's stack and in granules lent to a context. -/
def State.stackRange (s : State) (e c a n : Nat) : Bool := inStack e a n && s.rangeLent c a n
/-- The descriptor running for a context. -/
def State.upeAt (s : State) (e c : Nat) : Option UpeRun := (s.upes.find? (fun x => x.1 == (e, c))).map (·.2)
/-- Replace it. -/
def State.setUpe (s : State) (e c : Nat) (r : UpeRun) : State := { s with upes := tset s.upes (e, c) r }
/-- Read for the engine. -/
def State.upeRead (s : State) (e c a n : Nat) : Rd := s.readPhys (stkFrame e) c a n
/-- Write for the engine within one granule; a write to a granule no longer lent is suppressed (R409). -/
def State.upePiece (s : State) (e c a : Nat) (data : List Byte) (poison : Bool) : State :=
  if s.rangeLent c a data.length then s.writePhys (stkFrame e) c a data poison else s
/-- Write for the engine, granule by granule: what it writes reaches into two at most. -/
def State.upeWrite (s : State) (e c a : Nat) (data : List Byte) (poison : Bool) : State :=
  let n := 2 ^ 30 - a % 2 ^ 30
  if data.length ≤ n then s.upePiece e c a data poison
  else (s.upePiece e c a (data.take n) poison).upePiece e c (a + n) (data.drop n) poison

/-- Words of 32 bits of a byte list. -/
def words32 (n : Nat) (b : List Byte) : List Nat := (chunksOf 4 n b).map leNat

/-- Whether a message has had no answer for `n` ns since a port began to send it (R417, R450). -/
def Outstanding.unanswered (o : Outstanding) (n t : Nat) : Bool :=
  match o.sent with
  | some at_ => decide (at_ + n ≤ t)
  | none => false

/-! ## Descriptor fields (R391) -/

/-- NSTATE. -/
def layerStates (w : List Byte) : Nat := bits (layerCtrl w) 9 3
/-- TAG. -/
def layerTag (w : List Byte) : Nat := bits (layerCtrl w) 16 16
/-- COUNT. -/
def layerCount (w : List Byte) : Nat := fieldAt w 8 8
/-- Whether PASSES selects pass `p`. -/
def layerPass (w : List Byte) (p : Nat) : Bool := (layerCtrl w).testBit (3 + p)
/-- RESUME. -/
def layerResume (w : List Byte) : Bool := (layerCtrl w).testBit 7
/-- The address of a tensor by its code: 0 MASTER, 1 GRAD, 2 to 5 STATE0 to STATE3 (R396). -/
def tensorAt (w : List Byte) (code : Nat) : Nat := fieldAt w (0x10 + 8 * code) 8
/-- WSYNC when enabled. -/
def layerWsync (w : List Byte) : Option Nat := if (layerCtrl w).testBit 14 then some (fieldAt w 4 4 % 4096) else none
/-- ASYNC when enabled. -/
def layerAsync (w : List Byte) : Option Nat := if (layerCtrl w).testBit 15 then some (bits (fieldAt w 4 4) 16 12) else none
/-- Elements of a chunk (R398). -/
def chunkElems : Nat := 16384
/-- N, the number of chunks. -/
def layerChunks (w : List Byte) : Nat := (layerCount w + 16383) / 16384
/-- Elements of chunk `n`. -/
def chunkOf (w : List Byte) (n : Nat) : Nat := min 16384 (layerCount w - 16384 * n)

/-! ## Program words (R395, R396) -/

/-- What a field of a program word holds. -/
inductive UField where
  | unused | temp | value | tensor | scalar
  deriving DecidableEq, Repr

/-- The fields D, A, B, C of an operation; none for a reserved OP. -/
def upeShape (op : Nat) : Option (List UField) :=
  match op with
  | 0x01 => some [.temp, .tensor, .unused, .unused]
  | 0x02 => some [.tensor, .value, .unused, .unused]
  | 0x03 => some [.temp, .value, .value, .unused]
  | 0x04 => some [.temp, .value, .value, .unused]
  | 0x05 => some [.temp, .value, .value, .unused]
  | 0x06 => some [.temp, .value, .value, .value]
  | 0x07 => some [.temp, .value, .value, .unused]
  | 0x08 => some [.temp, .value, .unused, .unused]
  | 0x09 => some [.temp, .value, .unused, .unused]
  | 0x0A => some [.temp, .value, .value, .unused]
  | 0x0B => some [.temp, .value, .value, .unused]
  | 0x0C => some [.temp, .value, .value, .value]
  | 0x0D => some [.temp, .value, .scalar, .unused]
  | 0x10 => some [.scalar, .value, .unused, .unused]
  | 0x11 => some [.scalar, .value, .unused, .unused]
  | _ => none

/-- OP of a word. -/
def uOp (w : Nat) : Nat := w % 64
/-- D. -/
def uD (w : Nat) : Nat := bits w 6 4
/-- A. -/
def uA (w : Nat) : Nat := bits w 10 6
/-- B. -/
def uB (w : Nat) : Nat := bits w 16 6
/-- C. -/
def uC (w : Nat) : Nat := bits w 22 6
/-- Whether a word is a reduction. -/
def uReduces (w : Nat) : Bool := uOp w == 0x10 || uOp w == 0x11

/-- Whether one field is legal: `ns` states, TRUST allowed, temporaries written so far. -/
def uFieldOk (ns : Nat) (trust : Bool) (written : List Nat) (k : UField) (v : Nat) : Bool :=
  match k with
  | .unused => v == 0
  | .temp => true
  | .value => decide (v < 0x2E) && (decide (0x10 ≤ v) || written.contains v) && (v != 0x2B || trust)
  | .tensor => decide (v < 2 + ns)
  | .scalar => decide (v < 8)

/-- Whether a word is legal: its operation and fields; SWEEP only for a reduction; one kind of reduction for each scalar (R395 to R397). -/
def uWordOk (ns : Nat) (trust : Bool) (written : List Nat) (before : List Nat) (w : Nat) : Bool :=
  match upeShape (uOp w) with
  | none => false
  | some ks =>
    w >>> 29 == 0 && (!w.testBit 28 || uReduces w)
      && (ks.zip [uD w, uA w, uB w, uC w]).all (fun e => uFieldOk ns trust written e.1 e.2)
      && (!uReduces w || before.all (fun x => !(uReduces x && uD x == uD w && uOp x != uOp w)))

/-- The byte offset of the first illegal word of a program. -/
def uFirstBad (ns : Nat) (trust : Bool) : List Nat → List Nat → Nat → List Nat → Option Nat
  | _, _, _, [] => none
  | written, before, i, w :: r =>
    if uWordOk ns trust written before w then
      let written := if (upeShape (uOp w)).map (fun l => l.headD .unused) == some .temp then uD w :: written else written
      uFirstBad ns trust written (w :: before) (i + 1) r
    else some (4 * i)

/-- The words of a program block, or the offset of what is wrong with it (R394). -/
def readProgram (w : List Byte) (blk : List Byte) : Nat ⊕ List Nat :=
  let n := fieldAt blk 0xC0 4
  if n = 0 ∨ 32 < n ∨ (blk.drop 0xC4).any (fun b => b != 0) then .inl 0xC0
  else
    let l := (words32 32 blk).take n
    match uFirstBad (layerStates w) ((layerCtrl w).testBit 13) [] [] 0 l with
    | some off => .inl off
    | none => .inr l

/-- The tensors a program stores, in the order of the undo area (R405). -/
def storedTensors (prog : List Nat) : List Nat := (List.range 6).filter (fun c => prog.any (fun w => uOp w == 2 && uD w == c))
/-- The tensors it loads. -/
def loadedTensors (prog : List Nat) : List Nat := (List.range 6).filter (fun c => prog.any (fun w => uOp w == 1 && uA w == c))

/-! ## Checks at take (R391 to R393) -/

/-- Whether a kind uses the local tensor with a code. -/
def usesTensor (w : List Byte) (code : Nat) : Bool :=
  let k := layerKind w
  match code with
  | 0 => k == 0 || k == 1 || k == 3 || k == 5
  | 1 => k == 0
  | _ => (k == 0 || k == 3 || k == 5) && decide (code < 2 + layerStates w)

/-- The local ranges of a descriptor: field offset, start, length. A range that only an unselected pass uses counts when its field is not 0 (R393; log 94). -/
def localRanges (w : List Byte) (stored : Nat) : List (Nat × Nat × Nat) :=
  let k := layerKind w
  let n := layerCount w
  let upd := k == 0
  let given := fun (off : Nat) => fieldAt w off 8 != 0
  let copy := fun (off : Nat) => k == 1 || (upd && (layerPass w 3 || given off))
  let undo := upd && stored != 0 && (layerPass w 2 || given 0x50)
  let jrn := upd && (layerPass w 2 || layerResume w || given 0x58)
  (((List.range 6).filter (usesTensor w)).map (fun c => (0x10 + 8 * c, tensorAt w c, 4 * n)))
    ++ (if copy 0x40 then [(0x40, fieldAt w 0x40 8, 2 * n)] else [])
    ++ (if copy 0x48 then [(0x48, fieldAt w 0x48 8, layerChunks w)] else [])
    ++ (if undo then [(0x50, fieldAt w 0x50 8, stored * 0x10000)] else [])
    ++ (if jrn then [(0x58, fieldAt w 0x58 8, 256)] else [])
    ++ (if upd then [(0x60, fieldAt w 0x60 8, 256)] else [])

/-- The field of the first range that overlaps an earlier one. -/
def overlapAt : List (Nat × Nat × Nat) → List (Nat × Nat × Nat) → Option Nat
  | _, [] => none
  | seen, (f, a, n) :: r =>
    if seen.any (fun e => decide (a < e.2.1 + e.2.2) && decide (e.2.1 < a + n)) then some f else overlapAt ((f, a, n) :: seen) r

/-- The mask of the bits of CTRL a kind may set (R391, R392). -/
def ctrlMask (k : Nat) : Nat :=
  match k with
  | 0 => 0xFFFFFFFF
  | 3 => 0xFFFFCE0F
  | 5 => 0xFFFFCE0F
  | _ => 0xFFFFC00F

/-- The mask of SCAL a kind may set. -/
def scalMask (k : Nat) : Nat := match k with | 0 => 0x1F0777 | 3 => 0x1F0000 | _ => 0

/-- Whether a field at a descriptor offset is illegal by itself (R391 to R393): reserved bits, fields the kind does not use, alignment. -/
def fieldBad (w : List Byte) (off : Nat) : Bool :=
  let k := layerKind w
  let v8 := fieldAt w off 8
  let v4 := fieldAt w off 4
  let wide := decide (2 ^ 41 ≤ v8)
  let upd := k == 0
  match off with
  | 0x00 => decide (5 < k) || (v4 &&& ctrlMask k) != v4 || decide (4 < layerStates w) || (upd && bits v4 4 3 == 0)
  | 0x04 => (v4 &&& 0x0FFF0FFF) != v4
  | 0x08 => v8 == 0 || (k != 2 && k != 4 && decide (2 ^ 34 < v8))
  | 0x40 => if upd || k == 1 then wide || v8 % 256 != 0 else wide
  | 0x48 => if upd || k == 1 then wide || v8 % 256 != 0 else if k == 5 then wide else v8 != 0
  | 0x50 => if upd then wide || (layerPass w 2 && (v8 == 0 || v8 % 0x10000 != 0)) else v8 != 0
  | 0x58 => if upd then wide || ((layerPass w 2 || layerResume w) && (v8 == 0 || v8 % 256 != 0)) else v8 != 0
  | 0x60 => if upd then wide || v8 % 256 != 0 else v8 != 0
  | 0x68 => if k == 1 || k == 5 then v4 != 0 else false
  | 0x6C => if upd then false else v4 != 0
  | 0x70 => (v4 &&& scalMask k) != v4
  | 0x74 => if decide (2 ≤ k) then (v4 &&& 0x3FFF) != v4 else v4 != 0
  | _ => if usesTensor w ((off - 0x10) / 8) then wide || v8 % 256 != 0 else v8 != 0

/-- The offsets of a descriptor's fields, in order. -/
def layerFields : List Nat := [0, 4, 8, 0x10, 0x18, 0x20, 0x28, 0x30, 0x38, 0x40, 0x48, 0x50, 0x58, 0x60, 0x68, 0x6C, 0x70, 0x74]

/-- What a descriptor is refused for, as the DETAIL of INVALID, or its program and constants (R393 to R395, R411). -/
def State.layerCheck (s : State) (e c : Nat) (w : List Byte) : Nat ⊕ (List Nat × List Nat) :=
  let upd := layerKind w == 0
  let pa := fieldAt w 0x60 8
  let blk : List Byte := if upd && pa % 256 == 0 && s.stackRange e c pa 256 then (s.upeRead e c pa 256).bytes else []
  let prog := readProgram w blk
  let stored := match prog with
    | .inl _ => 0
    | .inr l => (storedTensors l).length
  let ranges := localRanges w stored
  let outside := fun (off : Nat) => ranges.any (fun r => r.1 == off && !s.stackRange e c r.2.1 r.2.2)
  match layerFields.find? (fun off => fieldBad w off || outside off) with
  | some off => .inl off
  | none =>
    match overlapAt [] ranges with
    | some off => .inl off
    | none =>
      if upd then
        match prog with
        | .inl off => .inl off
        | .inr l => .inr (l, words32 16 (blk.drop 0x80))
      else .inr ([], [])

/-! ## Arithmetic of one element (R395 to R397) -/

/-- 1 ÷ √A, correctly rounded (R396). -/
def rsqrt32 (x : Nat) : FRes :=
  match fmt32.nanOf false [x] with
  | some r => r
  | none =>
    match fmt32.num x with
    | .inf a => if a then fmt32.invalid else ⟨0, 0⟩
    | .fin a m e =>
      if m = 0 then ⟨fmt32.signed a fmt32.infBits, fmt32.dz⟩
      else if a then fmt32.invalid
      else
        let odd := e % 2 ≠ 0
        let m := if odd then 2 * m else m
        let e := if odd then e - 1 else e
        let q := 2 ^ 128 / m
        let r := isqrtFrom q 66 0
        fmt32.round false r (-64 - e / 2) (decide (r * r * m ≠ 2 ^ 128))
    | _ => fmt32.invalid

/-- A binary64 flag set as the binary32 flags of the same names. -/
def flags64to32 (fl : Nat) : Nat := bits fl 5 5

/-- TSC: the exact product of a binary32 and a binary64, rounded once to binary32 (R396); a special operand behaves as in a binary64 product that is then narrowed (log 55). -/
def scaleBy (a x : Nat) : FRes :=
  match fmt32.num a, fmt64.num x with
  | .fin p m e, .fin q n g =>
    if m = 0 ∨ n = 0 then ⟨fmt32.signed (p != q) 0, 0⟩ else fmt32.round (p != q) (m * n) (e + g) false
  | _, _ =>
    let w := cvtFmt fmt32 fmt64 a
    let r := fmt64.mul w.v x
    let v := cvtFmt fmt64 fmt32 r.v
    ⟨v.v, flags64to32 (w.fl ||| r.fl) ||| v.fl⟩

/-- An operand code of 0x10 and above, with the flags of its rounding to binary32 (R395, R397). -/
def upeValue (r : UpeRun) (code : Nat) : FRes :=
  if code < 0x20 then ⟨(r.consts.getD (code - 0x10) 0).toNat, 0⟩
  else if code < 0x28 then cvtFmt fmt64 fmt32 (r.scalars.getD (code - 0x20) 0).toNat
  else match code with
    | 0x28 => ⟨r.step.toNat, 0⟩
    | 0x29 => fmt32.ofInt r.stepNo.toNat
    | 0x2A => ⟨r.clip.toNat, 0⟩
    | 0x2B => ⟨r.trust.toNat, 0⟩
    | 0x2C => ⟨0, 0⟩
    | _ => ⟨0x3F800000, 0⟩

/-- The operand codes that a program word reads (R395, R396). -/
def uOperands (w : Nat) : List Nat :=
  match upeShape (uOp w) with
  | some ks => ((ks.zip [uD w, uA w, uB w, uC w]).filter (fun e => e.1 == .value)).map (·.2)
  | none => []

/-- The flags that rounding a word's operands to binary32 raises (R86, R89, R397). -/
def operandFlags (r : UpeRun) (w : Nat) : Nat := (uOperands w).foldl (fun fl v => if v < 0x10 then fl else fl ||| (upeValue r v).fl) 0

/-- One element on its way through a program: temporaries, values to store, partials, flags. -/
structure UElem where
  t : List Nat
  st : Tbl Nat Nat
  parts : List (List W64)
  fl : Nat

/-- A reduction's step on lane `lane` (R397). -/
def reduceStep (sumsq : Bool) (p a : Nat) : FRes :=
  if sumsq then
    let x := cvtFmt fmt32 fmt64 a
    let q := fmt64.mul x.v x.v
    let r := fmt64.add p q.v
    ⟨r.v, x.fl ||| q.fl ||| r.fl⟩
  else
    match fmt32.num a with
    | .nan _ => ⟨p, 0⟩
    | _ => ⟨max p (cvtFmt fmt32 fmt64 (a % 2 ^ 31)).v, 0⟩

/-- One instruction on one element: `src` gives the loaded tensors. -/
def uStep (r : UpeRun) (src : Tbl Nat Nat) (lane : Nat) (x : UElem) (w : Nat) : UElem :=
  let val := fun (code : Nat) => if code < 0x10 then x.t.getD code 0 else (upeValue r code).v
  let a := val (uA w)
  let b := val (uB w)
  let c := val (uC w)
  let x := { x with fl := x.fl ||| operandFlags r w }
  let put := fun (v : FRes) => { x with t := listSet x.t (uD w) v.v, fl := x.fl ||| v.fl }
  match uOp w with
  | 0x01 => put ⟨tget src (uA w) 0, 0⟩
  | 0x02 => { x with st := tset x.st (uD w) a }
  | 0x03 => put (fmt32.add a b)
  | 0x04 => put (fmt32.sub a b)
  | 0x05 => put (fmt32.mul a b)
  | 0x06 => put (fmt32.fma a b c)
  | 0x07 => put (fmt32.div a b)
  | 0x08 => put (fmt32.sqrt a)
  | 0x09 => put (rsqrt32 a)
  | 0x0A => put (fmt32.minMax true a b)
  | 0x0B => put (fmt32.minMax false a b)
  | 0x0C => put ⟨if numLt (fmt32.num 0) (fmt32.num a) then b else c, 0⟩
  | 0x0D => put (scaleBy a (r.scalars.getD (uB w) 0).toNat)
  | _ =>
    let l := x.parts.getD (uD w) []
    let v := reduceStep (uOp w == 0x10) (l.getD lane 0).toNat a
    { x with parts := listSet x.parts (uD w) (listSet l lane (BitVec.ofNat 64 v.v)), fl := x.fl ||| v.fl }

/-- The program over the rows of a chunk, in ascending order: what each element stores, the partials, the flags. -/
def uRows (r : UpeRun) (prog : List Nat) : Nat → List (Tbl Nat Nat) → List (List W64) → Nat → List (Tbl Nat Nat) × List (List W64) × Nat
  | _, [], parts, fl => ([], parts, fl)
  | i, src :: rest, parts, fl =>
    let x := prog.foldl (uStep r src (i % 128)) ⟨List.replicate 16 0, [], parts, fl⟩
    let (o, p, f) := uRows r prog (i + 1) rest x.parts x.fl
    (x.st :: o, p, f)

/-- The instructions a sweep of pass 1 executes: those on which its reductions depend (R399). The list is walked from its end; `need` holds the temporaries wanted. -/
def sliceBack (sweep : Bool) : List Nat → List Nat → List Nat
  | _, [] => []
  | need, w :: r =>
    let temps := fun (l : List Nat) => l.filter (fun v => decide (v < 0x10))
    let reads := temps (uOperands w)
    if uReduces w then (if w.testBit 28 == sweep then w :: sliceBack sweep (reads ++ need) r else sliceBack sweep need r)
    else if uOp w != 2 && need.contains (uD w) then w :: sliceBack sweep (reads ++ need.filter (fun t => t != uD w)) r
    else sliceBack sweep need r

/-- The slice of a program for a sweep. -/
def sliceOf (sweep : Bool) (prog : List Nat) : List Nat :=
  if prog.any (fun w => uReduces w && w.testBit 28 == sweep) then (sliceBack sweep [] prog.reverse).reverse else []

/-- A program as numbers. -/
def UpeRun.prog (r : UpeRun) : List Nat := r.program.map (·.toNat)

/-- Combine the partials of every scalar that a reduction writes. -/
def UpeRun.combine (r : UpeRun) : UpeRun :=
  (List.range 8).foldl (fun r n =>
    match r.prog.find? (fun w => uReduces w && uD w == n) with
    | none => r
    | some w =>
      let l := (r.partials.getD n []).map (·.toNat)
      let v := if uOp w = 0x10 then treeOf fmt64.add 8 l else treeOf (fun a b => ⟨max a b, 0⟩) 8 l
      { r with scalars := listSet r.scalars n (BitVec.ofNat 64 v.v), flags := r.flags ||| v.fl }) r

/-- NaN or an infinity. -/
def nonFinite64 (x : Nat) : Bool := match fmt64.num x with | .fin _ _ _ => false | _ => true

/-- CLIP from S[GNORM], noting a scalar with which the layer ends NONFINITE after pass 1; CLIP is then the formula's value still, which sweep B reads (R400; log 94). -/
def UpeRun.withClip (r : UpeRun) : UpeRun :=
  let x := (r.scalars.getD (fieldAt r.words 0x70 4 % 8) 0).toNat
  if !(layerCtrl r.words).testBit 12 then r
  else if x % 2 ^ 63 = 0 then { r with clip := 0x3F800000 }
  else
    let c := cvtFmt fmt32 fmt64 (fieldAt r.words 0x6C 4)
    let q := fmt64.sqrt x
    let d := fmt64.div c.v q.v
    let m := fmt64.minMax false 0x3FF0000000000000 d.v
    let v := cvtFmt fmt64 fmt32 m.v
    { r with nonfinite := nonFinite64 x, clip := BitVec.ofNat 32 v.v, flags := r.flags ||| c.fl ||| q.fl ||| d.fl ||| m.fl ||| v.fl }

/-- TRUST from its two scalars (R400): none when the layer ends NONFINITE. -/
def UpeRun.withTrust (r : UpeRun) : Option UpeRun :=
  let sc := fieldAt r.words 0x70 4
  let a := (r.scalars.getD (bits sc 4 3) 0).toNat
  let b := (r.scalars.getD (bits sc 8 3) 0).toNat
  if !(layerCtrl r.words).testBit 13 then some r
  else if a % 2 ^ 63 = 0 ∨ b % 2 ^ 63 = 0 then some { r with trust := 0x3F800000 }
  else if nonFinite64 a || nonFinite64 b then none
  else
    let p := fmt64.sqrt a
    let q := fmt64.sqrt b
    let d := fmt64.div p.v q.v
    let v := cvtFmt fmt64 fmt32 d.v
    some { r with trust := BitVec.ofNat 32 v.v, flags := r.flags ||| p.fl ||| q.fl ||| d.fl ||| v.fl }

/-! ## Present-tensor policy (R104, R402) -/

/-- The scale exponent of a block of binary32 values: a signed byte's value. -/
def blockSe (vs : List Nat) : Int :=
  let amax := vs.foldl (fun m v => match amax32 v with | some a => max m a | none => m) 0
  if amax = 0 then 0 else clampInt (expOf32 amax - 15) (-128) 127

/-- The K16 values of a block, with the flags of their conversions. -/
def blockK16 (se : Int) (vs : List Nat) : List Nat × Nat :=
  vs.foldr (fun v acc => let k := fmt32.toK 10 se v; (k.v :: acc.1, k.fl ||| acc.2)) ([], 0)

/-- Rows of a chunk from its tensors' values: one table from tensor code to value for each element. -/
def rowsOfTensors (codes : List Nat) : Nat → List (List Nat) → List (Tbl Nat Nat)
  | 0, _ => []
  | m + 1, ls => (codes.zip (ls.map (fun l => l.headD 0))) :: rowsOfTensors codes m (ls.map (fun l => l.drop 1))

end Sys2Proof.Machine
end

