-- ==== Sys2Proof/Machine/Upe.lean ====
section
/-! DEFINITION. Update engines at work: taking a descriptor, the passes chunk by chunk with their journal, replicas, checkpoints and restores, completion, recovery (R386 to R419). -/
namespace Sys2Proof.Machine

/-! ## The journal (R404, R405) -/

/-- JOURNAL of a descriptor. -/
def UpeRun.journal (r : UpeRun) : Nat := fieldAt r.words 0x58 8

/-- JWORD, an aligned 8-byte write, after FLAGS so far. -/
def State.journalWord (s : State) (e c : Nat) (r : UpeRun) (state chunk : Nat) : State :=
  let s := s.upeWrite e c (r.journal + 8) (u32 (r.flags % 8192)) false
  s.upeWrite e c r.journal (u32 chunk ++ u16 state ++ u16 (layerTag r.words)) false

/-- Step 1 of R405: the descriptor as taken and zeros, then OPEN. -/
def State.journalOpen (s : State) (e c : Nat) (r : UpeRun) (taken : List Byte) : State :=
  let s := s.upeWrite e c (r.journal + 8) (List.replicate 0x78 0 ++ taken) false
  s.upeWrite e c r.journal (u32 0 ++ u16 0 ++ u16 (layerTag r.words)) false

/-- Step 2 of R405: scalars, factors, step, then READY. -/
def State.journalReady (s : State) (e c : Nat) (r : UpeRun) : State :=
  let s := s.upeWrite e c (r.journal + 0x10)
    (r.scalars.flatMap (fun x => u64 x.toNat) ++ u32 r.clip.toNat ++ u32 r.trust.toNat ++ u32 r.step.toNat ++ u32 r.stepNo.toNat) false
  s.journalWord e c r 1 0

/-! ## Ends of a descriptor -/

/-- The descriptor has ended with a code and waits to be completed. -/
def State.upeEnd (s : State) (e c : Nat) (r : UpeRun) (code detail : Nat) : State :=
  s.setUpe e c { r with phase := 6, code := code, detail := detail, outst := [] }

/-- A poisoned chunk (R410): the record UPE_POISON. -/
def State.upePoison (s : State) (e c n : Nat) : State := s.event (upeFrame e) 0x206 c 0 (u32 n)

/-- STATUS as one 8-byte write, with the flags and the records that follow (R411). -/
def State.layerStatus (s : State) (e c addr num code flags detail : Nat) : State :=
  let f := upeFrame e
  let s := s.upeWrite e c (addr + 0x78) (u64 (code + flags % 8192 * 256 + detail % 2 ^ 32 * 2 ^ 32)) false
  let s := if code = 3 ∨ 5 ≤ code then s.flagEvent f 0x10 0 0x207 c (u8 c ++ u8 code) else s
  let s := if flags % 8192 = 0 then s else s.raise f 0x10 1
  if code = 1 then s else s.completion f c 1 (num % 65536) code

/-! ## From pass to pass (R398 to R402, R405, R408) -/

/-- The end of the descriptor's work: DONE, or POISON when pass 3 met poison (R410, R411). -/
def State.upeFinish (s : State) (e c : Nat) (r : UpeRun) : State :=
  match r.poisoned with
  | some n => s.upeEnd e c r 5 n
  | none => s.upeEnd e c r 2 r.done

/-- After pass 3: COMPLETE in the journal, when there is one (log 56). -/
def State.afterPass3 (s : State) (e c : Nat) (r : UpeRun) : State :=
  let w := r.words
  let jrn := layerKind w == 0 && (layerPass w 2 || layerResume w)
  let s := if jrn then s.journalWord e c r 5 (layerChunks w - 1) else s
  s.upeFinish e c r

/-- Pass 3, if selected. -/
def State.enterPass3 (s : State) (e c : Nat) (r : UpeRun) : State :=
  if layerPass r.words 3 then s.setUpe e c { r with phase := 4, chunk := 0 } else s.upeFinish e c r

/-- After pass 2: UPDATED. -/
def State.afterPass2 (s : State) (e c : Nat) (r : UpeRun) : State :=
  (s.journalWord e c r 4 (layerChunks r.words - 1)).enterPass3 e c r

/-- Pass 2, if selected and not already done: READY in a journal that is still OPEN. -/
def State.enterPass2 (s : State) (e c : Nat) (r : UpeRun) : State :=
  let n := layerChunks r.words
  if !layerPass r.words 2 || decide (3 ≤ r.stage) then s.enterPass3 e c { r with done := if 3 ≤ r.stage then n else r.done }
  else
    let s := if r.stage = 0 then s.journalReady e c r else s
    let r : UpeRun := { r with done := r.first, chunk := r.first, phase := 3 }
    if n ≤ r.first then s.afterPass2 e c r else s.setUpe e c r

/-- After pass 1: NONFINITE, or TRUST and pass 2. -/
def State.afterPass1 (s : State) (e c : Nat) (r : UpeRun) : State :=
  if r.nonfinite then s.upeEnd e c r 7 0
  else match r.withTrust with
  | none => s.upeEnd e c r 7 0
  | some r => s.enterPass2 e c r

/-- After sweep A: the scalars, CLIP, then sweep B if any reduction has it. -/
def State.afterSweepA (s : State) (e c : Nat) (r : UpeRun) : State :=
  let r := r.combine.withClip
  if (sliceOf true r.prog).isEmpty then s.afterPass1 e c r else s.setUpe e c { r with phase := 2, chunk := 0 }

/-- After sweep B: the scalars again. -/
def State.afterSweepB (s : State) (e c : Nat) (r : UpeRun) : State := s.afterPass1 e c r.combine

/-! ## Remote kinds: messages (R416 to R419, R445) -/

/-- Queue one message of a checkpoint kind or RESTORE; it is outstanding whether or not a port could take it, and one that no port takes counts as sent now (R417). -/
def State.upeSend (s : State) (c : Nat) (r : UpeRun) (typ addr pos len : Nat) (data : List Byte) : State × UpeRun :=
  let (s, txn) := s.takeTxn
  let m : Msg := s.request c { typ := typ, len := len, dstId := fieldAt r.words 0x74 4 % 16384, dstRank := anyRank, addr := addr, txn := txn, data := data }
  let sent := if s.jobOf c = 0xFFFF then none else s.sendMsg c false none m
  let now := if sent.isSome then none else some s.pm.ran
  (sent.getD s, { r with outst := r.outst ++ [{ txn := txn, sent := now, localPa := pos, len := len }] })

/-- WRITE messages for the pieces of a range. -/
def State.upeSendPieces (s : State) (c : Nat) (r : UpeRun) (addr : Nat) (data : List Byte) : List (Nat × Nat) → State × UpeRun
  | [] => (s, r)
  | (off, len) :: rest =>
    let (s, r) := s.upeSend c r 0 (addr + off) 0 len ((data.drop off).take len)
    s.upeSendPieces c r addr data rest

/-- Write bytes to the buddy. -/
def State.upePut (s : State) (c : Nat) (r : UpeRun) (addr : Nat) (data : List Byte) : State × UpeRun :=
  s.upeSendPieces c r addr data (cutsOf addr data.length)

/-- READ messages for the pieces of a range; the answers fill `got` from `pos`. -/
def State.upeAskPieces (s : State) (c : Nat) (r : UpeRun) (addr pos : Nat) : List (Nat × Nat) → State × UpeRun
  | [] => (s, r)
  | (off, len) :: rest =>
    let (s, r) := s.upeSend c r 2 (addr + off) (pos + off) len []
    s.upeAskPieces c r addr pos rest

/-- Read bytes from the buddy into `got`. -/
def State.upeGet (s : State) (c : Nat) (r : UpeRun) (addr n : Nat) : State × UpeRun :=
  s.upeAskPieces c { r with got := List.replicate n 0, gotBad := [] } addr 0 (cutsOf addr n)

/-- The header of a slot (R416). -/
def State.slotHeader (s : State) (r : UpeRun) : List Byte :=
  u32 0x54504B43 ++ u16 (layerTag r.words) ++ u16 0 ++ u32 (fieldAt r.words 0x68 4) ++ u32 (s.links.selfId.getD 0)
    ++ u64 (layerCount r.words) ++ List.replicate 232 0

/-- The trailer of a slot. -/
def slotTrailer (r : UpeRun) : List Byte :=
  u32 0x4C494154 ++ u16 (layerTag r.words) ++ u16 0 ++ u32 (fieldAt r.words 0x68 4) ++ u32 0 ++ u64 0 ++ List.replicate 232 0

/-- Where a slot's trailer lies. -/
def trailerAt (base size : Nat) : Nat := base + size - 256

/-- How many tensors a layer record holds. -/
def recordTensors (w : List Byte) : Nat := layerStates w + 1
/-- The tensor code of entry `i` of a layer record. -/
def recordCode (i : Nat) : Nat := if i = 0 then 0 else i + 1
/-- Whether entry `i` is written as K16 (FMT16). -/
def recordK16 (w : List Byte) (i : Nat) : Bool := (fieldAt w 0x70 4).testBit (16 + i)
/-- Bytes of a tensor in a record. -/
def recordSize (w : List Byte) (k16 : Bool) : Nat := if k16 then 2 * layerCount w + layerChunks w else 4 * layerCount w
/-- OFFSET of entry `i`: each tensor is 256-byte aligned after the one before (R418). -/
def recordOffset (w : List Byte) : Nat → Nat
  | 0 => 256
  | i + 1 => (recordOffset w i + recordSize w (recordK16 w i) + 255) / 256 * 256

/-- A CRC carried on over bytes (R418). -/
def crcOn (c : Nat) (b : List Byte) : Nat := b.foldl (crcByte 0xEDB88320) c
/-- Its start. -/
def crcStart : Nat := 0xFFFFFFFF

/-- The header of a layer record. -/
def recordHeader (r : UpeRun) : List Byte :=
  let w := r.words
  let entry := fun (i : Nat) =>
    if i < recordTensors w then
      u64 (recordOffset w i) ++ u32 (b2n (recordK16 w i)) ++ u32 ((r.crcs.getD i crcStart) ^^^ 0xFFFFFFFF)
    else List.replicate 16 0
  u32 0x5259414C ++ u16 (layerTag w) ++ u16 (layerStates w) ++ u64 (layerCount w) ++ u32 (fieldAt w 0x68 4) ++ List.replicate 12 0
    ++ (List.range 5).flatMap entry ++ List.replicate 144 0

/-- FORMAT of an entry of the record that RESTORE read: K16. -/
def gotK16 (r : UpeRun) (i : Nat) : Bool := fieldAt r.header (0x20 + 16 * i + 8) 4 == 1
/-- The remote address of an entry of that record. -/
def gotTensor (r : UpeRun) (i : Nat) : Nat := fieldAt r.words 0x40 8 + fieldAt r.header (0x20 + 16 * i) 8

/-- RESTORE begins the next tensor, or ends: CRC_BAD with the first tensor whose CRC differs (R419). Steps: 4 the scale exponents are on their way, 5 a chunk is to be asked for, 6 it is on its way. -/
def State.restoreTensor (s : State) (e c : Nat) (r : UpeRun) : State :=
  let w := r.words
  if recordTensors w ≤ r.tensor then
    let bad := (List.range (recordTensors w)).find? (fun i => (r.crcs.getD i crcStart) ^^^ 0xFFFFFFFF != fieldAt r.header (0x20 + 16 * i + 12) 4)
    match bad with
    | some i => s.upeEnd e c r 13 (recordCode i)
    | none => s.upeFinish e c r
  else if gotK16 r r.tensor then
    let (s, r) := s.upeGet c { r with remote := 4 } (gotTensor r r.tensor + 2 * layerCount w) (layerChunks w)
    s.setUpe e c r
  else s.setUpe e c { r with remote := 5, chunk := 0, seTab := [] }

/-- The local range of the present tensor's chunk. -/
def UpeRun.chunkRange (r : UpeRun) (code : Nat) : Nat × Nat := (tensorAt r.words code + 4 * chunkElems * r.chunk, 4 * chunkOf r.words r.chunk)

/-- A chunk is counted, and the free number of engine cycles it waited on the stack (R421; log 30). -/
def State.tallyChunk (s : State) (e : Nat) : State := (s.bump (upeFrame e) 0xC00 1).waitCycles (upeFrame e) 0xC08

/-- The chunk that RESTORE read is widened and written, and the flags of the widening go to the descriptor's (R93, R397, R419); with poison in it, or in the scale exponent it is widened with, the descriptor ends POISON before that chunk writes a byte (R410). The next tensor waits while the context is frozen (R334). -/
def State.restoreChunk (s : State) (e c : Nat) (r : UpeRun) : State :=
  let w := r.words
  let m := chunkOf w r.chunk
  let k16 := gotK16 r r.tensor
  let se := sext (leNat ((r.seTab.drop r.chunk).take 1)) 8
  let wide := ((chunksOf 2 m r.got).map leNat).map (fmt32.ofK se)
  let data := if k16 then wide.flatMap (fun x => u32 x.v) else r.got
  let flags := if k16 then wide.foldl (fun f x => f ||| x.fl) r.flags else r.flags
  let (a, n) := r.chunkRange (recordCode r.tensor)
  if !r.gotBad.isEmpty || (k16 && r.seBad.any (fun p => decide (p.1 ≤ r.chunk) && decide (r.chunk < p.1 + p.2))) then (s.upePoison e c r.chunk).upeEnd e c r 5 r.chunk
  else if !s.rangeLent c a n then s.upeEnd e c r 6 r.chunk
  else
    let s := s.upeWrite e c a data false
    let crc := crcOn (r.crcs.getD r.tensor crcStart) r.got
    let r : UpeRun := { r with chunk := r.chunk + 1, remote := 5, done := max r.done (r.chunk + 1), flags := flags }
    let s := (s.tallyChunk e).moved (e / 2) c
    if r.chunk < layerChunks w then s.setUpe e c { r with crcs := listSet r.crcs r.tensor crc }
    else
      let crc := if k16 then crcOn crc r.seTab else crc
      let r : UpeRun := { r with crcs := listSet r.crcs r.tensor crc, tensor := r.tensor + 1, chunk := 0, remote := 7 }
      if s.upeRuns e c then s.restoreTensor e c r else s.setUpe e c r

/-- What follows when nothing is outstanding (R417, R419). -/
def State.upeRemote (s : State) (e c : Nat) (r : UpeRun) : State :=
  let w := r.words
  let base := fieldAt w 0x40 8
  let put := fun (n addr : Nat) (data : List Byte) =>
    let (s, r) := s.upePut c { r with remote := n } addr data
    s.setUpe e c r
  match layerKind w, r.remote with
  | 2, 0 => put 1 (trailerAt base (layerCount w)) (List.replicate 256 0)
  | 2, 1 => put 2 base (s.slotHeader r)
  | 2, _ => s.upeFinish e c r
  | 3, 0 => s.setUpe e c r
  | 3, 1 => put 2 base (recordHeader r)
  | 3, _ => s.upeFinish e c r
  | 4, 0 => put 1 (trailerAt base (layerCount w)) (slotTrailer r)
  | 4, _ => s.upeFinish e c r
  | _, 0 =>
    let (s, r) := s.upeGet c { r with remote := 1 } (fieldAt w 0x48 8) 256
    s.setUpe e c r
  | _, 1 =>
    let (s, r) := s.upeGet c { r with header := r.got, remote := 2 } (trailerAt (fieldAt w 0x48 8) (fieldAt r.got 0x10 8)) 256
    s.setUpe e c r
  | _, 2 =>
    let valid := fieldAt r.got 0 4 == 0x4C494154 && fieldAt r.got 4 2 == fieldAt r.header 4 2 && fieldAt r.got 8 4 == fieldAt r.header 8 4
    if valid && fieldAt r.header 4 2 == layerTag w then
      let (s, r) := s.upeGet c { r with remote := 3 } base 256
      s.setUpe e c r
    else s.upeEnd e c r 12 0
  | _, 3 => s.restoreTensor e c { r with header := r.got, tensor := 0 }
  | _, 4 => s.setUpe e c { r with seTab := r.got, seBad := r.gotBad, chunk := 0, remote := 5 }
  | _, 6 => s.restoreChunk e c r
  | _, 7 => s.restoreTensor e c r
  | _, _ => s.setUpe e c r

/-- Whether what follows sends a request, which a frozen context does not start (R334); else it only completes work in flight. -/
def UpeRun.sendsNext (r : UpeRun) : Bool :=
  match layerKind r.words with
  | 2 => decide (r.remote < 2)
  | 3 => r.remote == 1
  | 4 => r.remote == 0
  | _ => r.remote != 6

/-- What follows when nothing is outstanding, unless it must wait (R61, R334): then UPE_CHUNK goes on with it. -/
def State.upeNext (s : State) (e c : Nat) (r : UpeRun) : State :=
  if s.upeRuns e c || (s.upeUp e && !r.sendsNext) then s.upeRemote e c r else s.setUpe e c r

/-- An answer to a message of a descriptor: an ACK, or READ_DATA with its bytes. -/
def State.upeAnswer (s : State) (e c : Nat) (r : UpeRun) (m : Msg) : State :=
  match r.outst.find? (fun o => o.txn == m.txn) with
  | none => s
  | some o =>
    let r : UpeRun := { r with outst := r.outst.filter (fun x => x.txn != m.txn) }
    let r : UpeRun := if m.typ = 3 then { r with got := patch r.got o.localPa (m.data.take o.len), gotBad := if m.poison then (o.localPa, o.len) :: r.gotBad else r.gotBad } else r
    if r.outst.isEmpty then s.upeNext e c r else s.setUpe e c r

/-! ## Taking a descriptor (R388 to R390, R403, R408) -/

/-- A descriptor begins its work once its WSYNC wait is over. -/
def State.upeBegin (s : State) (e c : Nat) (r : UpeRun) : State :=
  match layerKind r.words with
  | 0 =>
    if r.stage = 5 then s.upeEnd e c r 2 (layerChunks r.words)
    else
      let r : UpeRun := { r with partials := List.replicate 8 (List.replicate 128 0) }
      if r.stage = 0 ∧ layerPass r.words 1 then
        (if (sliceOf false r.prog).isEmpty then s.afterSweepA e c r else s.setUpe e c { r with phase := 1, chunk := 0 })
      else s.enterPass2 e c r
  | 1 => s.setUpe e c { r with phase := 4, chunk := 0 }
  | _ => s.upeRemote e c { r with phase := 5, crcs := List.replicate 5 crcStart }

/-- Wait on WSYNC, or begin; an unbound identifier ends the descriptor (R411). -/
def State.upeWsync (s : State) (e : Fin 16) (c : Fin 64) (r : UpeRun) : State :=
  match layerWsync r.words with
  | none => s.upeBegin e.val c.val r
  | some id =>
    match s.objOf (some c.val) id with
    | none => s.upeEnd e.val c.val r 11 id
    | some o => (s.setUpe e.val c.val { r with phase := 0 }).addWait (.upe e c) o

/-- The descriptor as a RESUME runs it (R406, R408): from the journal's copy, except for STATUS, the sync fields and PASSES; or the code and detail it ends with. -/
def State.resumed (s : State) (e c : Nat) (own : List Byte) : (Nat × Nat) ⊕ (List Byte × UpeRun) :=
  let j := fieldAt own 0x58 8
  if fieldBad own 0x58 || !s.stackRange e c j 256 then .inl (3, 0x58)
  else
    let b := (s.upeRead e c j 256).bytes
    let chunk := fieldAt b 0 4
    let state := fieldAt b 4 2 % 8
    if fieldAt b 6 2 ≠ layerTag own then .inl (9, fieldAt b 6 2)
    else if state = 2 then .inl (8, chunk)
    else if 5 < state then .inl (3, 0x58)
    else
      let ctrl := (fieldAt b 0x80 4 &&& 0xFFFF3F0F) ||| (layerCtrl own &&& 0xC070) ||| 0x80
      let words := u32 ctrl ++ (own.drop 4).take 4 ++ ((b.drop 0x88).take 112) ++ List.replicate 8 0
      let at_ := fun (off : Nat) => BitVec.ofNat 32 (fieldAt b off 4)
      .inr (words,
        { addr := 0, num := 0, words := words, phase := 0
          stage := match state with | 0 => 0 | 1 => 1 | 3 => 2 | 4 => 3 | _ => 5
          first := if state = 3 then chunk + 1 else 0
          scalars := (List.range 8).map (fun i => BitVec.ofNat 64 (fieldAt b (0x10 + 8 * i) 8))
          clip := if state = 0 then 0x3F800000 else at_ 0x50
          trust := if state = 0 then 0x3F800000 else at_ 0x54
          step := at_ 0x58, stepNo := at_ 0x5C, flags := fieldAt b 8 4 % 8192 })

/-- The arrival on ASYNC, whatever the code (R411). -/
def State.layerArrive (s : State) (e c : Nat) (w : List Byte) : State :=
  match layerAsync w with
  | some id => s.arriveOn (e / 2) c id 1 (srcCode 2 e)
  | none => s

/-- The descriptor read at HEAD is taken (R388 steps 4 and 5, R393, R403, R408). -/
def State.upeTake (s : State) (e : Fin 16) (c : Fin 64) (a num : Nat) : State :=
  let en := e.val
  let cn := c.val
  let f := upeFrame en
  let rd := s.upeRead en cn a 128
  let s := rd.st
  let own := rd.bytes
  if fieldAt own 0x78 8 ≠ 0 then (s.layerStatus en cn a num 4 0 0).layerArrive en cn own
  else
    let base : UpeRun := { addr := a, num := num, words := own, phase := 6 }
    let resume := layerKind own == 0 && layerResume own
    if resume && fieldBad own 0 then s.upeEnd en cn base 3 0
    else
    match (if resume then s.resumed en cn own else .inr (own, { base with step := BitVec.ofNat 32 (s.reg f (0x800 + 8 * cn)), stepNo := BitVec.ofNat 32 (s.reg f (0x804 + 8 * cn)) })) with
    | .inl (code, detail) => s.upeEnd en cn base code detail
    | .inr (w, r) =>
      let r : UpeRun := { r with addr := a, num := num }
      match s.layerCheck en cn w with
      | .inl off => s.upeEnd en cn r 3 off
      | .inr (prog, consts) =>
        let r : UpeRun := { r with program := prog.map (BitVec.ofNat 32), consts := consts.map (BitVec.ofNat 32) }
        let s := s.layerStatus en cn a num 1 0 0
        let latched := s.reg f (0x804 + 8 * cn)
        if layerKind w = 0 ∧ (layerCtrl w).testBit 8 ∧ latched ≠ fieldAt w 0x68 4 then s.upeEnd en cn r 10 latched
        else
          let s := if layerKind w = 0 ∧ layerPass w 2 ∧ !resume then s.journalOpen en cn r own else s
          s.upeWsync e c r

/-- Whether a waiter's wait on object `o` is over; its entry is added when it is not there, and one there keeps the object it was begun on (R323, R424). -/
def State.engineWait (s : State) (w : Waiter) (o ident : Nat) : State × Bool :=
  let s := s.addWaitAs w o ident
  (s, match s.waitOf w with
    | some x => x.woken
    | none => false)

/-- The object and the identifier a ring waits on: those latched as its wait began, else those its configuration names now (R424); none when unbound. -/
def State.ringObject (s : State) (w : Waiter) (c cfg : Nat) : Option (Nat × Nat) :=
  match s.waitOf w with
  | some x => some (x.obj, x.ident)
  | none => (s.objOf (some c) (cfg % 4096)).map (fun o => (o, cfg % 4096))

/-- UPE_TAKE: the engine takes the next descriptor of a ring (R388 to R390). -/
def execUpeTake (e : Fin 16) (c : Fin 64) (s : State) : Host.Outcome State Fault Refusal :=
  .next (
    let en := e.val
    let cn := c.val
    let f := upeFrame en
    let cfg := s.reg f (0x408 + 16 * cn)
    if !s.upeRuns en cn || !(s.reg f 0).testBit 0 || !cfg.testBit 31 || (s.upeAt en cn).isSome then s
    else match s.ringObject (.upe e c) cn cfg with
    | none => s.raise f 0x10 2
    | some (o, ident) =>
      let (s, waited) := s.engineWait (.upe e c) o ident
      if !waited then s
      else
        let s := s.dropWait (.upe e c)
        let head := s.reg f (0x40C + 16 * cn)
        let a := s.reg f (0x400 + 16 * cn) + 2 ^ 32 * s.reg f (0x404 + 16 * cn) + 128 * (head % 2 ^ bits cfg 12 4)
        if !s.stackRange en cn a 128 then
          (s.setReg f (0x408 + 16 * cn) (cfg % 2 ^ 31)).flagEvent f 0x10 5 0x207 cn (u8 cn ++ u8 3)
        else
          let s := s.syncAct o 1 1 (srcCode 2 en) cn ident
          let s := s.setReg f (0x40C + 16 * cn) ((head + 1) % 2 ^ 32)
          s.upeTake e c a head)

/-! ## One chunk (R398 to R402, R405, R409, R410, R414) -/

/-- A chunk of some tensors: none when a granule is no longer lent; else the values and whether any sector was poisoned. -/
def State.readTensors (s : State) (e c : Nat) (r : UpeRun) : List Nat → Option (State × List (List Nat) × Bool)
  | [] => some (s, [], false)
  | code :: rest =>
    let (a, n) := r.chunkRange code
    if !s.rangeLent c a n then none
    else
      let rd := s.upeRead e c a n
      match rd.st.readTensors e c r rest with
      | none => none
      | some (s, l, p) => some (s, words32 (n / 4) rd.bytes :: l, rd.poison || p)

/-- A chunk has been performed: counted, a turn of its context, a sign of life (R333, R413, R421). -/
def State.chunkDone (s : State) (e c : Nat) : State := ((s.tallyChunk e).takeTurn e c).moved (e / 2) c

/-- A chunk of pass 1, sweep A or B. -/
def State.pass1Chunk (s : State) (e c : Nat) (r : UpeRun) : State :=
  let w := r.words
  let prog := sliceOf (r.phase == 2) r.prog
  let codes := loadedTensors prog
  match s.readTensors e c r codes with
  | none => s.upeEnd e c r 6 r.chunk
  | some (s, vals, poison) =>
    if poison then (s.upePoison e c r.chunk).upeEnd e c r 5 r.chunk
    else
      let (_, parts, fl) := uRows r prog 0 (rowsOfTensors codes (chunkOf w r.chunk) vals) r.partials r.flags
      let s := s.chunkDone e c
      let r' : UpeRun := { r with partials := parts, flags := fl, chunk := r.chunk + 1 }
      if r'.chunk < layerChunks w then s.setUpe e c r'
      else if r.phase = 1 then s.afterSweepA e c r' else s.afterSweepB e c r'

/-- Write the undo slots, in order. -/
def State.writeUndo (s : State) (e c undo : Nat) : List (List Nat) → State
  | [] => s
  | l :: rest => (s.upeWrite e c undo (l.flatMap u32) false).writeUndo e c (undo + 0x10000) rest

/-- Write the results of the stored tensors. -/
def State.writeResults (s : State) (e c : Nat) (r : UpeRun) : List (Nat × List Nat) → State
  | [] => s
  | (code, vs) :: rest => (s.upeWrite e c (r.chunkRange code).1 (vs.flatMap u32) false).writeResults e c r rest

/-- The first half of a chunk of pass 2: reads, undo slots, IN_FLIGHT (R401, R405 step 3); a check that fails comes before anything of the chunk is written (R409). -/
def State.pass2Chunk (s : State) (e c : Nat) (r : UpeRun) : State :=
  let w := r.words
  let prog := r.prog.filter (fun x => !uReduces x)
  let stored := storedTensors r.prog
  let codes := (List.range 6).filter (fun x => (loadedTensors prog).contains x || stored.contains x)
  let undo := fieldAt w 0x50 8
  match s.readTensors e c r codes with
  | none => s.upeEnd e c r 6 r.chunk
  | some (s, vals, poison) =>
    if poison then (s.upePoison e c r.chunk).upeEnd e c r 5 r.chunk
    else if !(s.rangeLent c r.journal 256 && (stored.isEmpty || s.rangeLent c undo (stored.length * 0x10000))) then s.upeEnd e c r 6 r.chunk
    else
      let (outs, _, fl) := uRows r prog 0 (rowsOfTensors codes (chunkOf w r.chunk) vals) r.partials r.flags
      let old := (codes.zip vals).filterMap (fun x => if stored.contains x.1 then some x.2 else none)
      let r' : UpeRun := { r with flags := fl }
      let s := (s.writeUndo e c undo old).journalWord e c r' 2 r.chunk
      s.setUpe e c { r' with results := some (stored.map (fun code => (code, outs.map (fun o => tget o code 0)))) }

/-- The second half: results, COMMITTED. A granule withdrawn since IN_FLIGHT loses its writes, JWORD stays IN_FLIGHT and the descriptor ends GRANULE_LOST (R409). -/
def State.pass2Results (s : State) (e c : Nat) (r : UpeRun) (res : List (Nat × List Nat)) : State :=
  let lent := s.rangeLent c r.journal 256 && res.all (fun x => s.rangeLent c (r.chunkRange x.1).1 (r.chunkRange x.1).2)
  let s := s.writeResults e c r res
  let r : UpeRun := { r with results := none }
  if !lent then s.upeEnd e c r 6 r.chunk
  else
    let s := (s.journalWord e c r 3 r.chunk).chunkDone e c
    let r : UpeRun := { r with chunk := r.chunk + 1, done := r.chunk + 1 }
    if r.chunk < layerChunks r.words then s.setUpe e c r else s.afterPass2 e c r

/-- A chunk of pass 3 or of a REPLICA: one block of the K16 copy and its scale exponent (R104, R402, R410, R414). -/
def State.pass3Chunk (s : State) (e c : Nat) (r : UpeRun) : State :=
  let w := r.words
  let m := chunkOf w r.chunk
  let copy := fieldAt w 0x40 8 + 2 * chunkElems * r.chunk
  let se := fieldAt w 0x48 8 + r.chunk
  match s.readTensors e c r [0] with
  | none => s.upeEnd e c r 6 r.chunk
  | some (s, vals, poison) =>
    if !(s.rangeLent c copy (2 * m) && s.rangeLent c se 1) then s.upeEnd e c r 6 r.chunk
    else
      let vs := vals.headD []
      let x := blockSe vs
      let (ks, fl) := blockK16 x vs
      let s := (s.upeWrite e c copy (ks.flatMap u16) poison).upeWrite e c se (u8 (wrapNat x 8)) poison
      let first := poison && r.poisoned.isNone
      let s := if first then s.upePoison e c r.chunk else s
      let s := s.chunkDone e c
      let r : UpeRun := { r with flags := r.flags ||| fl, poisoned := if first then some r.chunk else r.poisoned, chunk := r.chunk + 1 }
      let r : UpeRun := if layerKind w = 1 then { r with done := r.chunk } else r
      if r.chunk < layerChunks w then s.setUpe e c r else s.afterPass3 e c r

/-- A chunk of CKPT_LAYER: the tensor's bytes go to the buddy, as K16 with its scale exponents after it when its FMT16 bit is set (R418). -/
def State.ckptChunk (s : State) (e c : Nat) (r : UpeRun) : State :=
  let w := r.words
  match s.readTensors e c r [recordCode r.tensor] with
  | none => s.upeEnd e c r 6 r.chunk
  | some (s, vals, poison) =>
    if poison then (s.upePoison e c r.chunk).upeEnd e c r 5 r.chunk
    else
      let vs := vals.headD []
      let k16 := recordK16 w r.tensor
      let x := blockSe vs
      let (ks, fl) := blockK16 x vs
      let rec_ := fieldAt w 0x40 8 + recordOffset w r.tensor
      let data := if k16 then ks.flatMap u16 else vs.flatMap u32
      let dst := rec_ + (if k16 then 2 else 4) * chunkElems * r.chunk
      let crc := crcOn (r.crcs.getD r.tensor crcStart) data
      let r : UpeRun := { r with flags := if k16 then r.flags ||| fl else r.flags, seTab := if k16 then r.seTab ++ u8 (wrapNat x 8) else r.seTab }
      let (s, r) := s.upePut c r dst data
      let s := s.chunkDone e c
      if r.chunk + 1 < layerChunks w then s.setUpe e c { r with chunk := r.chunk + 1, crcs := listSet r.crcs r.tensor crc }
      else
        let crc := if k16 then crcOn crc r.seTab else crc
        let (s, r) := if k16 then s.upePut c r (rec_ + 2 * layerCount w) r.seTab else (s, r)
        let r : UpeRun := { r with crcs := listSet r.crcs r.tensor crc, seTab := [], chunk := 0, tensor := r.tensor + 1 }
        s.setUpe e c (if r.tensor < recordTensors w then r else { r with remote := 1 })

/-- A chunk of a remote kind: CKPT_LAYER sends one, RESTORE asks for one, which is its turn (R413); or what had to wait goes on. -/
def State.remoteChunk (s : State) (e c : Nat) (r : UpeRun) : State :=
  let w := r.words
  if layerKind w = 3 ∧ r.remote = 0 then s.ckptChunk e c r
  else if layerKind w = 5 ∧ r.remote = 5 then
    let m := chunkOf w r.chunk
    let k := if gotK16 r r.tensor then 2 else 4
    let (s, r) := (s.takeTurn e c).upeGet c { r with remote := 6 } (gotTensor r r.tensor + k * chunkElems * r.chunk) (k * m)
    s.setUpe e c r
  else if r.outst.isEmpty then s.upeNext e c r
  else s

/-- A running descriptor's wait on WSYNC ends, if it is over. -/
def State.upeWake (s : State) (e : Fin 16) (c : Fin 64) (r : UpeRun) : State :=
  match layerWsync r.words with
  | none => s
  | some id =>
    match s.objOf (some c.val) id with
    | none => (s.dropWait (.upe e c)).upeEnd e.val c.val r 11 id
    | some o =>
      let (s, waited) := s.engineWait (.upe e c) o id
      if waited then (s.dropWait (.upe e c)).upeBegin e.val c.val r else s

/-- UPE_CHUNK: one turn of one context's descriptor, while its stack block is not gated (R489). A chunk of pass 2 takes two, since its results are written only once IN_FLIGHT has been accepted (R405); the second is work in flight, which a frozen context completes (R334). -/
def execUpeChunk (e : Fin 16) (c : Fin 64) (s : State) : Host.Outcome State Fault Refusal :=
  .next (
    match s.upeAt e.val c.val with
    | none => s
    | some r =>
      if s.gatedNow (e.val / 2) (16 + e.val % 2) then s
      else match (if s.upeUp e.val then r.results else none) with
      | some res => s.pass2Results e.val c.val r res
      | none =>
      if !s.upeRuns e.val c.val ∨ (r.hasWork ∧ !s.turnOpen e.val c.val) then s
      else match r.phase with
      | 0 => s.upeWake e c r
      | 1 => s.pass1Chunk e.val c.val r
      | 2 => s.pass1Chunk e.val c.val r
      | 3 => s.pass2Chunk e.val c.val r
      | 4 => s.pass3Chunk e.val c.val r
      | 5 => s.remoteChunk e.val c.val r
      | _ => s)

/-- UPE_LAYER_COMPLETE: STATUS, then the arrival on ASYNC, whatever the code (R411). When the last message of CKPT_LAYER is answered, its header follows first. -/
def execUpeLayerComplete (e : Fin 16) (c : Fin 64) (s : State) : Host.Outcome State Fault Refusal :=
  .next (
    let en := e.val
    let cn := c.val
    match s.upeAt en cn with
    | none => s
    | some r =>
      if !s.upeUp en || r.phase != 6 then s
      else
        let s : State := { s with upes := tdel s.upes (en, cn) }
        (s.layerStatus en cn r.addr r.num r.code r.flags r.detail).layerArrive en cn r.words)

/-- CKPT_ACK_TIMEOUT: a message without an answer for 10 ms ends the descriptor LINK_FAILED (R417). -/
def execCkptAckTimeout (e : Fin 16) (c : Fin 64) (now : W64) (s : State) : Host.Outcome State Fault Refusal :=
  .next (
    let en := e.val
    let cn := c.val
    let s := s.advance now
    match s.upeAt en cn with
    | none => s
    | some r =>
      if s.upeUp en && r.phase == 5 && r.outst.any (fun o => o.unanswered 10000000 s.pm.ran) then s.upeEnd en cn r 14 0 else s)

/-! ## Stops and recovery (R407, R412, R421) -/

/-- Context reset stops a running descriptor with ABANDONED and no arrival (R412). -/
def State.upeAbandon (s : State) (e : Fin 16) (c : Fin 64) : State :=
  match s.upeAt e.val c.val with
  | none => s
  | some r =>
    let u : State := { s with upes := tdel s.upes (e.val, c.val) }
    ((u.dropWait (.upe e c)).layerStatus e.val c.val r.addr r.num 15 r.flags r.done).unblocked s

/-- Whether a journal belongs to a running descriptor. -/
def State.journalBusy (s : State) (e j : Nat) : Bool :=
  s.upes.any (fun x => x.1.1 == e && x.2.journal == j && layerKind x.2.words == 0 && (layerPass x.2.words 2 || layerResume x.2.words))

/-- The undo slots copied back over the chunk (R406); what lies in a granule no longer lent is not written (R409). -/
def State.rollBack (s : State) (e c : Nat) (r : UpeRun) (undo : Nat) : List Nat → State
  | [] => s
  | code :: rest =>
    let (a, n) := r.chunkRange code
    let rd := s.upeRead e c undo n
    (rd.st.upeWrite e c a rd.bytes rd.poison).rollBack e c r (undo + 0x10000) rest

/-- The rollback that the bytes `b` of an IN_FLIGHT journal ask for: the chunk, its tensors. None when it is not to be done: the journal, the undo area or the program is no longer lent, the descriptor copy reaches out of the engine's stack, or its program is not one that could have been taken (R384, R409; log 83). -/
def State.rollPlan (s : State) (e c j : Nat) (b : List Byte) : Option (UpeRun × List Nat) :=
  let w := (b.drop 0x80).take 128
  let r : UpeRun := { addr := 0, num := 0, words := w, phase := 4, chunk := fieldAt b 0 4 }
  if !s.stackRange e c j 256 || !s.stackRange e c (fieldAt w 0x60 8) 256 then none
  else match readProgram w (s.upeRead e c (fieldAt w 0x60 8) 256).bytes with
    | .inl _ => none
    | .inr l =>
      let stored := storedTensors l
      if (stored.isEmpty || s.stackRange e c (fieldAt w 0x50 8) (stored.length * 0x10000)) && stored.all (fun x => inStack e (r.chunkRange x).1 (r.chunkRange x).2)
      then some (r, stored) else none

/-- The rollback under way on an engine: UPE_STATE shows it (R422). -/
def State.setRolling (s : State) (e : Nat) (x : Option (Nat × Nat)) : State := { s with turns := tset s.turns e { s.turnsOf e with rolling := x } }

/-- The rollback: the chunk's old values, then the word before it (R406). -/
def State.rollDone (s : State) (e c j : Nat) (r : UpeRun) (stored : List Nat) (state chunk tag : Nat) : State :=
  let s := (s.rollBack e c r (fieldAt r.words 0x50 8) stored).writePhys (stkFrame e) c j (u32 chunk ++ u16 state ++ u16 tag) false
  (s.setRolling e none).raise (upeFrame e) 0x10 4

end Sys2Proof.Machine
end

