-- ==== Sys2Proof/Machine/Stages.lean ====
section
/-! DEFINITION. Collective engines: taking, launching, answering and completing stages; the wakes of every waiter (R322 to R324, R446 to R450). -/
namespace Sys2Proof.Machine

/-! ## Stages of a ring -/

/-- The stages of a ring, oldest first. -/
def State.stagesOf (s : State) (d c : Nat) : List Stage := tget s.links.stages (d, c) []
/-- Replace them. -/
def State.setStages (s : State) (d c : Nat) (l : List Stage) : State := { s with links := { s.links with stages := tset s.links.stages (d, c) l } }
/-- Replace stage `i` of a ring. -/
def State.setStage (s : State) (d c i : Nat) (g : Stage) : State := s.setStages d c (listSet (s.stagesOf d c) i g)
/-- Whether a collective engine goes on at all (R61, R509). -/
def State.ceUp (s : State) (d : Nat) : Bool := s.pwr.ready && !s.frozen (.ce d) && !(s.region d).fenced

/-- Whether a collective engine works for a context (R61, R35, R334). -/
def State.ceRuns (s : State) (d c : Nat) : Bool := s.ceUp d && !s.sync.frozen.contains c

/-! ## The descriptor (R447, R448) -/

/-- CTRL. -/
def stageCtrl (w : List Byte) : Nat := fieldAt w 0 4
/-- KIND: 0 PUT, 1 REDUCE, 2 GET. -/
def stageKind (w : List Byte) : Nat := stageCtrl w % 16
/-- FMT. -/
def stageFmt (w : List Byte) : Nat := bits (stageCtrl w) 4 2
/-- FOLD. -/
def stageFold (w : List Byte) : Bool := (stageCtrl w).testBit 6
/-- TIMED. -/
def stageTimed (w : List Byte) : Bool := (stageCtrl w).testBit 7
/-- WSYNC when enabled. -/
def stageWsync (w : List Byte) : Option Nat := if (stageCtrl w).testBit 8 then some (fieldAt w 4 4 % 4096) else none
/-- ASYNC when enabled. -/
def stageAsync (w : List Byte) : Option Nat := if (stageCtrl w).testBit 9 then some (bits (fieldAt w 4 4) 16 12) else none
/-- RSYNC when enabled. -/
def stageRsync (w : List Byte) : Option Nat := if (stageCtrl w).testBit 10 then some (fieldAt w 8 4 % 4096) else none
/-- DST_RANK. -/
def stageRank (w : List Byte) : Nat := fieldAt w 0xC 4 % 16384
/-- LOCAL. -/
def stageLocal (w : List Byte) : Nat := fieldAt w 0x10 8
/-- REMOTE. -/
def stageRemote (w : List Byte) : Nat := fieldAt w 0x18 8
/-- LEN. -/
def stageLen (w : List Byte) : Nat := fieldAt w 0x20 8
/-- LAUNCH_T. -/
def stageTime (w : List Byte) : Nat := fieldAt w 0x28 8
/-- Bytes of an element of a format. -/
def stageElem (w : List Byte) : Nat := match stageFmt w with | 1 => 4 | 2 => 2 | _ => 1

/-- The first offending field of a stage at take (R448); a LEN outside 1 to 2^32 counts as a reserved field (log 64). -/
def State.stageCheck (s : State) (c : Nat) (w : List Byte) : Option Nat :=
  let k := stageKind w
  let f := stageFmt w
  let ctrlBad := decide (2 < k) || f == 3 || (stageCtrl w / 2048 % 32 != 0) || ((k == 0 || k == 2) && f != 0) || (k == 1 && f == 0)
    || (stageFold w && !(k == 1 && f == 1))
  if ctrlBad then some 0
  else if fieldAt w 4 4 &&& 0xF000F000 ≠ 0 then some 4
  else if 4096 ≤ fieldAt w 8 4 then some 8
  else if 16384 ≤ fieldAt w 0xC 4 then some 0xC
  else if 2 ^ 41 ≤ stageLocal w ∨ !s.rangeLent c (stageLocal w) (stageLen w) then some 0x10
  else if 2 ^ 41 ≤ stageRemote w then some 0x18
  else if stageLen w = 0 ∨ 2 ^ 32 < stageLen w ∨ stageLen w % stageElem w ≠ 0 then some 0x20
  else if fieldAt w 0x30 8 ≠ 0 then some 0x30
  else if s.jobOf c = 0xFFFF then some 0
  else none

/-! ## Ends of a stage (R411, R449, R450, R458) -/

/-- STATUS as one 8-byte write, with the flag and the records that follow. -/
def State.stageStatus (s : State) (d c addr num code flags detail : Nat) : State :=
  let f := FrameId.ce d
  let b := u64 (code + flags % 8192 * 256 + detail % 2 ^ 32 * 2 ^ 32)
  let s := if s.rangeLent c (addr + 0x38) 8 then s.writePhys f c (addr + 0x38) b false else s
  let s := if code = 3 ∨ 5 ≤ code then s.flagEvent f 0x10 0 0x207 c (u8 c ++ u8 code) else if code = 4 then s.raise f 0x10 0 else s
  if code = 1 then s else s.completion f c 2 (num % 65536) code

/-- A stage has ended with a code and waits to be completed. -/
def Stage.ended (g : Stage) (code detail : Nat) : Stage := { g with phase := 4, code := code, detail := detail, outst := [] }

/-! ## Taking (R446, R449 items 1 and 2) -/

/-- Read the parts of the first 8 KiB, each with the offset of its message and whether it was poisoned. -/
def State.prefetchList (s : State) (d c here : Nat) : List (Nat × Nat) → State × List (Nat × List Byte × Bool)
  | [] => (s, [])
  | (off, len) :: rest =>
    if 8192 ≤ off then (s, [])
    else
      let rd := s.readPhys (.ce d) c (here + off) (min len (8192 - off))
      let (s, l) := rd.st.prefetchList d c here rest
      (s, (off, rd.bytes, rd.poison) :: l)

/-- What a stage that is ready at least 2 µs before LAUNCH_T prefetches of its LOCAL range (R449). -/
def State.stagePrefetch (s : State) (d c : Nat) (g : Stage) : State × Stage :=
  let w := g.words
  let n := min 8192 (stageLen w)
  if stageTimed w ∧ stageKind w ≠ 2 ∧ g.ready.toNat + 2000 ≤ stageTime w ∧ s.rangeLent c (stageLocal w) n then
    let (s, l) := s.prefetchList d c (stageLocal w) (cutsOf (stageRemote w) (stageLen w))
    (s, { g with pre := l })
  else (s, g)

/-- A stage is ready: its destination is translated once, the time is noted, the prefetch is made. Every port's alias table holds the same entries; port 0's is read. -/
def State.stageReady (s : State) (d c : Nat) (g : Stage) : State × Stage :=
  s.stagePrefetch d c { g with phase := 1, dstId := tget s.links.aliases (0, stageRank g.words) 0, ready := s.copyOf d }

/-- A ring's stage `i` is ready. -/
def State.readyStage (s : State) (d c i : Nat) (g : Stage) : State :=
  let (s, g) := s.stageReady d c g
  s.setStage d c i g

/-- The wait on WSYNC of a ring's newest stage ends, if it is over; an unbound identifier ends the stage. -/
def State.stageWake (s : State) (d : Fin 8) (c : Fin 64) (i : Nat) (g : Stage) : State :=
  match stageWsync g.words with
  | none => s
  | some id =>
    match s.objOf (some c.val) id with
    | none => (s.dropWait (.ce d c)).setStage d.val c.val i (g.ended 11 id)
    | some o =>
      let (s, waited) := s.engineWait (.ce d c) o id
      if waited then (s.dropWait (.ce d c)).readyStage d.val c.val i g else s

/-- The stage descriptor read at HEAD is taken. -/
def State.stageBegin (s : State) (d : Fin 8) (c : Fin 64) (a num : Nat) : State :=
  let dn := d.val
  let cn := c.val
  let rd := s.readPhys (.ce dn) cn a 64
  let s := rd.st
  let w := rd.bytes
  let g : Stage := { addr := a, num := num, words := w, phase := 0 }
  let add := fun (s : State) (g : Stage) => s.setStages dn cn (s.stagesOf dn cn ++ [g])
  if fieldAt w 0x38 8 ≠ 0 then s.stageStatus dn cn a num 4 0 0
  else match s.stageCheck cn w with
  | some off => add s (g.ended 3 off)
  | none =>
    let s := s.stageStatus dn cn a num 1 0 0
    match stageWsync w with
    | none => (add s g).readyStage dn cn (s.stagesOf dn cn).length g
    | some id =>
      match s.objOf (some cn) id with
      | none => add s (g.ended 11 id)
      | some o => (add s g).addWait (.ce d c) o

/-- STAGE_TAKE: the engine takes a ring's next descriptor once the running stage has queued its last message (R388 to R390, R446). -/
def execStageTake (d : Fin 8) (c : Fin 64) (s : State) : Host.Outcome State Fault Refusal :=
  .next (s.served (fun s =>
    let dn := d.val
    let cn := c.val
    let f := FrameId.ce dn
    let cfg := s.reg f (0x408 + 16 * cn)
    if !s.ceRuns dn cn || !(s.reg f 0).testBit 0 || !cfg.testBit 31 || (s.stagesOf dn cn).any (fun g => decide (g.phase < 2)) then s
    else match s.ringObject (.ce d c) cn cfg with
    | none => s.raise f 0x10 2
    | some (o, ident) =>
      let (s, waited) := s.engineWait (.ce d c) o ident
      if !waited then s
      else
        let s := s.dropWait (.ce d c)
        let head := s.reg f (0x40C + 16 * cn)
        let a := s.reg f (0x400 + 16 * cn) + 2 ^ 32 * s.reg f (0x404 + 16 * cn) + 64 * (head % 2 ^ bits cfg 12 4)
        if !s.rangeLent cn a 64 then
          (s.setReg f (0x408 + 16 * cn) (cfg % 2 ^ 31)).flagEvent f 0x10 4 0x207 cn (u8 cn ++ u8 3)
        else
          let s := s.syncAct o 1 1 (srcCode 3 dn) cn ident
          let s := s.setReg f (0x40C + 16 * cn) ((head + 1) % 2 ^ 32)
          s.stageBegin d c a head))

/-! ## Launching (R449 items 3 and 4) -/

/-- OPT of a stage's WRITE_RED messages. -/
def stageOpt (w : List Byte) : Nat := if stageFold w then 1 else if stageFmt w = 2 then 2 else 0

/-- Queue one message of a stage. -/
def State.stageSend (s : State) (d c : Nat) (g : Stage) (m : Msg) (localPa : Nat) : State × Stage :=
  let (s, txn) := s.takeTxn
  let m : Msg := { s.request c m with dstId := g.dstId, dstRank := stageRank g.words, txn := txn }
  let s := (s.sendMsg c false (some (Config.stageHash d c g.dstId)) m).getD s
  (s, { g with outst := g.outst ++ [{ txn := txn, sent := none, localPa := localPa, len := m.len }] })

/-- The bytes of one message: what was prefetched of it, and the rest read now (R449). -/
def State.stageData (s : State) (d c : Nat) (g : Stage) (here off len : Nat) : Rd :=
  match g.pre.find? (fun e => e.1 == off) with
  | none => s.readPhys (.ce d) c here len
  | some (_, b, p) =>
    if len ≤ b.length then { st := s, bytes := b, poison := p }
    else
      let rd := s.readPhys (.ce d) c (here + b.length) (len - b.length)
      { rd with bytes := b ++ rd.bytes, poison := p || rd.poison }

/-- Queue the messages of a stage's pieces. -/
def State.stageSendAll (s : State) (d c : Nat) (g : Stage) : List (Nat × Nat) → State × Stage
  | [] => (s, g)
  | (off, len) :: rest =>
    let w := g.words
    let here := stageLocal w + off
    if stageKind w = 2 then
      let (s, g) := s.stageSend d c g { typ := 2, len := len, addr := stageRemote w + off } here
      s.stageSendAll d c g rest
    else
      let rd := s.stageData d c g here off len
      let m : Msg := { typ := if stageKind w = 1 then 1 else 0, opt := if stageKind w = 1 then stageOpt w else 0
                       poison := rd.poison, len := len, addr := stageRemote w + off, data := rd.bytes }
      let (s, g) := (rd.st.bump (.ce d) 0xC08 len).stageSend d c g m here
      s.stageSendAll d c g rest

/-- A ready stage launches: late when LAUNCH_T had passed as it became ready; an unroutable destination ends it (R449, R450). -/
def State.stageLaunch (s : State) (d c i : Nat) (g : Stage) : State :=
  let w := g.words
  let late := stageTimed w && decide (stageTime w < g.ready.toNat)
  let s := if late then s.bump (.ce d) 0xC00 1 else s
  if (s.candidates g.dstId).isEmpty then s.setStage d c i (g.ended 14 0)
  else if !s.rangeLent c (stageLocal w) (stageLen w) then s.setStage d c i (g.ended 6 0)
  else
    let (s, g) := s.stageSendAll d c { g with phase := 2 } (cutsOf (stageRemote w) (stageLen w))
    (s.setStage d c i g).moved d c

/-- The place of a ring's newest stage. -/
def State.newestStage (s : State) (d c : Nat) : Option (Nat × Stage) :=
  let l := s.stagesOf d c
  (l[l.length - 1]?).map (fun g => (l.length - 1, g))

/-- STAGE_LAUNCH: a stage whose wait is over queues its messages, at or after LAUNCH_T when it is TIMED. -/
def execStageLaunch (d : Fin 8) (c : Fin 64) (now : W64) (s : State) : Host.Outcome State Fault Refusal :=
  .next (
    let s := s.advance now
    match s.newestStage d.val c.val with
    | none => s
    | some (i, g) =>
      if !s.ceRuns d.val c.val then s
      else if g.phase = 0 then s.served (fun s => s.stageWake d c i g)
      else if g.phase = 1 ∧ ¬(stageTimed g.words ∧ (s.copyOf d.val).toNat < stageTime g.words) then s.served (fun s => s.stageLaunch d.val c.val i g)
      else s)

/-! ## Answers (R449, R450) -/

/-- An answer to a message of a stage: READ_DATA goes to LOCAL, an ACK brings flags and poison, a REFUSE its reason. -/
def State.stageAnswer (s : State) (d c i : Nat) (g : Stage) (o : Outstanding) (m : Msg) : State :=
  let g : Stage := { g with outst := g.outst.filter (fun x => x.txn != m.txn) }
  let s := s.moved d c
  if m.typ = 3 then
    let b := m.data.take o.len
    if s.rangeLent c o.localPa b.length then
      ((s.writePhys (.ce d) c o.localPa b m.poison).bump (.ce d) 0xC10 b.length).setStage d c i g
    else s.setStage d c i { g with code := 6 }
  else if m.typ = 5 then s.setStage d c i { g with code := 16, detail := m.opt }
  else s.setStage d c i { g with flags := g.flags ||| m.corr % 8192, poison := g.poison || m.poison }

/-- The stage that waits for a message with a tag: region, context, place, stage, message. -/
def State.stageWaiting (s : State) (txn : Nat) : Option (Nat × Nat × Nat × Stage × Outstanding) :=
  s.links.stages.findSome? (fun e =>
    ((List.range e.2.length).zip e.2).findSome? (fun x =>
      (x.2.outst.find? (fun o => o.txn == txn)).map (fun o => (e.1.1, e.1.2, x.1, x.2, o))))

/-! ## Completion (R449 items 5 and 6) -/

/-- A stage ends: STATUS, then the arrival on ASYNC. -/
def State.stageFinish (s : State) (d c i : Nat) (g : Stage) : State :=
  let code := if g.code ≠ 0 then g.code else if g.poison then 5 else 2
  let s := s.setStages d c (listDel (s.stagesOf d c) i)
  let s := s.stageStatus d c g.addr g.num code g.flags g.detail
  match stageAsync g.words with
  | some id => s.arriveOn d c id 1 (srcCode 3 d)
  | none => s

/-- A stage whose messages are all answered sends its arrival on RSYNC, or ends. -/
def State.stageAnswered (s : State) (d c i : Nat) (g : Stage) : State :=
  match (if g.code = 0 ∧ g.phase = 2 then stageRsync g.words else none) with
  | none => s.stageFinish d c i g
  | some id =>
    if (s.candidates g.dstId).isEmpty then s.stageFinish d c i { g with code := 14 }
    else
      let (s, g) := s.stageSend d c { g with phase := 3 } { typ := 6, addr := id } 0
      s.setStage d c i g

/-- Whether STAGE_COMPLETE has something to do with a stage. -/
def Stage.settled (g : Stage) : Bool := decide (2 ≤ g.phase) && g.outst.isEmpty

/-- STAGE_COMPLETE: the oldest stage of a ring with nothing outstanding goes on or ends, in a frozen context too: it is work in flight (R334). -/
def execStageComplete (d : Fin 8) (c : Fin 64) (s : State) : Host.Outcome State Fault Refusal :=
  .next (
    let l := s.stagesOf d.val c.val
    match ((List.range l.length).zip l).find? (fun x => x.2.settled) with
    | none => s
    | some (i, g) => if s.ceUp d.val then s.served (fun s => s.stageAnswered d.val c.val i g) else s)

/-- STAGE_MESSAGE_TIMEOUT: a message without an answer for 10 ms ends its stage LINK_FAILED. -/
def execStageMessageTimeout (d : Fin 8) (c : Fin 64) (now : W64) (s : State) : Host.Outcome State Fault Refusal :=
  .next (
    let s := s.advance now
    let old := fun (g : Stage) => g.outst.any (fun o => o.unanswered 10000000 s.pm.ran)
    if s.ceUp d.val && (s.stagesOf d.val c.val).any old then
      s.setStages d.val c.val ((s.stagesOf d.val c.val).map (fun g => if old g then g.ended 14 0 else g))
    else s)

/-- STATUS ABANDONED of every stage of a list, without arrivals. -/
def State.abandonList (s : State) (d c : Nat) : List Stage → State
  | [] => s
  | g :: r => (s.stageStatus d c g.addr g.num 15 g.flags 0).abandonList d c r

/-- The stages of a ring end with ABANDONED and no arrival (R450, R507). -/
def State.stagesAbandon (s : State) (d : Fin 8) (c : Fin 64) : State :=
  let l := s.stagesOf d.val c.val
  let u : State := { s with links := { s.links with stages := tdel s.links.stages (d.val, c.val) } }
  ((u.dropWait (.ce d c)).abandonList d.val c.val l).unblocked s

/-! ## Wakes (R322 to R324) -/

/-- WAIT_WAKE: a wake message reaches its waiter, which goes on as its own rules say. -/
def execWaitWake (who : Waiter) (s : State) : Host.Outcome State Fault Refusal :=
  match s.waitOf who with
  | none => .next s
  | some e =>
    if !e.woken then .next s
    else match who with
    | .core k =>
      (match (s.core k.val).waiting with
       | some ⟨.sync _, _, _, .wait i, _⟩ => if i.core = k then execWait i s else .next s
       | _ => .next s)
    | .desc k n =>
      (match s.desc k.val n.toNat with
       | some d => if d.waiting && s.aeStarts k.val && (s.fenceWrites k.val).isEmpty then .next (s.descAcquire k.val k.isLt n.toNat d) else .next s
       | none => .next s)
    | .upe en c =>
      (match s.upeAt en.val c.val with
       | some r => if r.phase = 0 ∧ s.upeRuns en.val c.val then .next (s.upeWake en c r) else .next s
       | none => execUpeTake en c s)
    | .ce d c =>
      (match s.newestStage d.val c.val with
       | some (i, g) => if g.phase = 0 then (if s.ceRuns d.val c.val then .next (s.served (fun s => s.stageWake d c i g)) else .next s) else execStageTake d c s
       | none => execStageTake d c s)

end Sys2Proof.Machine
end

