-- ==== Sys2Proof/Machine/LinkMessages.lean ====
section
/-! DEFINITION. Received messages: remote writes, reductions, reads, arrivals and events, and the answers to this module's own (R440 to R445, R449 to R452, R524). -/
namespace Sys2Proof.Machine

/-! ## What a received message is for -/

/-- The next received message of a type on a port, taken out of its buffer; `mine` says whether it names this module (R443; log 67). -/
def State.takeMsg (s : State) (p typ : Nat) : Option (State × Msg × Bool) :=
  match (if s.portRuns p then s.nextRx p typ else none) with
  | none => none
  | some (b, rest) =>
    let m := parseMsg b
    some (s.consume p b rest, m, s.links.selfId == some m.dstId)

/-- A request of a port: refused, or answered by `act` for its context (R443). -/
def State.serve (s : State) (p typ : Nat) (act : State → Msg → Nat → State) : State :=
  match s.takeMsg p typ with
  | none => s
  | some (s, m, mine) =>
    if !mine then s
    else match s.acceptMsg m m.len with
    | .inl reason => s.refuseMsg p m reason
    | .inr c => act (s.moved (portRegion p).1 c) m c

/-- The same for a request that accesses memory: it stays in its buffer while a frozen stack controller does not accept it (R61). -/
def State.serveMem (s : State) (p typ : Nat) (act : State → Msg → Nat → State) : State := s.served (fun s => s.serve p typ act)

/-- The physical address of a message. -/
def Msg.pa (m : Msg) : Nat := m.addr % 2 ^ 41

/-- WRITE (R444): performed at the stack controller, acknowledged once published. -/
def execWrite (p : Fin 12) (s : State) : Host.Outcome State Fault Refusal :=
  .next (s.serveMem p.val 0 (fun s m c =>
    let s := s.writePhys (.port p.val) c m.pa m.data m.poison
    s.respond c { s.response m 4 with poison := m.poison }))

/-- READ (R444): answered with the bytes as memory holds them. -/
def execRead (p : Fin 12) (s : State) : Host.Outcome State Fault Refusal :=
  .next (s.serveMem p.val 2 (fun s m c =>
    let rd := s.readPhys (.port p.val) c m.pa m.len
    rd.st.respond c { rd.st.response m 3 with poison := rd.poison, len := m.len, data := rd.bytes }))

/-! ## Reductions (R451, R452) -/

/-- A collective engine's fold generators for a context: those of seed 0 when none were loaded since reset. -/
def State.ceGensOf (s : State) (d c : Nat) : List W32 :=
  let l := tget s.links.ceGens (d, c) []
  if l.isEmpty then (List.range 64).map (fun l => BitVec.ofNat 32 (seedLane 0 l)) else l

/-- What a reduction has gathered: the state, flags, poison. -/
structure Reduced where
  st : State
  fl : Nat
  poison : Bool

/-- One element reduced: `opt` 0 binary32 add, 1 binary32 fold, 2 K16 add; its read-modify-write is one step. -/
def Reduced.element (r : Reduced) (d c opt : Nat) (poison : Bool) (pa : Nat) (x : List Byte) : Reduced :=
  let n := x.length
  let rd := r.st.readPhys (.ce d) c pa n
  let old := leNat rd.bytes
  let new := leNat x
  let lane := pa / 4 % 64
  let gens := rd.st.ceGensOf d c
  let g := galois (gens.getD lane 1).toNat
  let s : State := if opt = 1 then { rd.st with links := { rd.st.links with ceGens := tset rd.st.links.ceGens (d, c) (listSet gens lane (BitVec.ofNat 32 g)) } } else rd.st
  let v := match opt with
    | 0 => fmt32.add old new
    | 1 => foldAdd old new g
    | _ => kAdd old new
  ⟨s.writePhys (.ce d) c pa (leBytes n v.v) (poison || rd.poison), r.fl ||| v.fl, r.poison || poison || rd.poison⟩

/-- The elements of a message in ascending order. -/
def Reduced.elements (r : Reduced) (d c opt : Nat) (poison : Bool) : Nat → List (List Byte) → Reduced
  | _, [] => r
  | pa, x :: rest => (r.element d c opt poison pa x).elements d c opt poison (pa + x.length) rest

/-- Whole elements of `n` bytes; a last part of one is not reduced (log 68). -/
def wholeElements (n : Nat) (b : List Byte) : List (List Byte) := (chunksOf n b.length b).filter (fun x => x.length == n)

/-- WRITE_RED: reduced by the engine of the region that owns the address; a reserved OPT is dropped (log 68). -/
def execWriteRed (p : Fin 12) (s : State) : Host.Outcome State Fault Refusal :=
  .next (s.serveMem p.val 1 (fun s m c =>
    let d := regionOfPa m.pa
    if 2 < m.opt then s
    else
      let r := Reduced.elements ⟨s, 0, m.poison⟩ d c m.opt m.poison m.pa (wholeElements (if m.opt = 2 then 2 else 4) m.data)
      let s := (r.st.bump (.ce d) 0xC10 m.data.length).moved d c
      let s := if r.fl % 8192 = 0 then s else s.raise (.ce d) 0x10 1
      s.respond c { s.response m 4 with poison := r.poison, corr := r.fl % 8192 }))

/-! ## Arrivals and events -/

/-- ARRIVE_MESSAGE (R443, R444): an unbound identifier is refused and also counted as dropped. -/
def execArriveMessage (p : Fin 12) (s : State) : Host.Outcome State Fault Refusal :=
  .next (
    let p := p.val
    match s.takeMsg p 6 with
    | none => s
    | some (s, m, mine) =>
      let d := (portRegion p).1
      let arrive := fun (s : State) (c : Nat) => (s.moved d c).arriveOn d c (m.addr % 4096) 1 (srcCode 4 p)
      if !mine then s
      else match s.acceptMsg m 1 with
      | .inr c =>
        let s := arrive s c
        s.respond c (s.response m 4)
      | .inl 4 => (arrive s ((s.ctxOfJob m.job).getD 0)).refuseMsg p m 4
      | .inl reason => s.refuseMsg p m reason)

/-- The record of an EVENT message as the root takes it: its bytes with REMOTE and SRC_ID set (R524). -/
def remoteRecord (m : Msg) : EvRec :=
  let b := (m.data ++ List.replicate 64 0).take 64
  let code := fieldAt b 0 2
  { code := code, ctx := 0xFF, src := .revt, source := 0xC000, first := BitVec.ofNat 64 (fieldAt b 8 8), last := BitVec.ofNat 64 (fieldAt b 16 8)
    count := BitVec.ofNat 32 (fieldAt b 24 4), accession := BitVec.ofNat 16 (fieldAt b 38 2), payload := b.drop 40, remote := some m.srcId
    raw := b.take 2 ++ u8 (fieldAt b 2 1 ||| 16) ++ (b.drop 3).take 33 ++ u16 m.srcId ++ b.drop 38 }

/-- The root's input from the links. -/
def remoteInput : Nat := 9

/-- Why an EVENT message is refused (R443): a record of no context carries job 0xFFFF, which is no local context's. -/
def State.eventRefused (s : State) (m : Msg) : Option Nat :=
  match s.acceptHead m with
  | .inl reason => some reason
  | .inr _ => none

/-- EVENT_MESSAGE: the record waits in the port until the root has room for its class (R517, R524; log 58). -/
def execEventMessage (p : Fin 12) (s : State) : Host.Outcome State Fault Refusal :=
  .next (
    let p := p.val
    match s.takeMsg p 7 with
    | none => s
    | some (s', m, mine) =>
      if !mine then s'
      else match s.eventRefused m with
      | some reason => s'.refuseMsg p m reason
      | none =>
        let r := remoteRecord m
        let buf := tget s.ev.root remoteInput []
        if accepts (classOf r.code) buf.length then { s' with ev := { s'.ev with root := tset s'.ev.root remoteInput (buf ++ [r]) } } else s)

/-! ## Answers to this module's messages -/

/-- The update engine descriptor that waits for a tag. -/
def State.upeWaiting (s : State) (txn : Nat) : Option (Nat × Nat × UpeRun) :=
  (s.upes.find? (fun e => e.2.outst.any (fun o => o.txn == txn))).map (fun e => (e.1.1, e.1.2, e.2))

/-- An answer to a CKPT_SCAN read: data that arrives whole goes to its slot's place, anything else fails the scan (R417). -/
def Scan.answer (x : Scan) (o : Outstanding) (m : Msg) : Scan :=
  let x := { x with outst := x.outst.filter (fun y => y.txn != o.txn) }
  if m.typ ≠ 3 ∨ m.poison ∨ m.data.length ≠ o.len then { x with failed := some m.opt }
  else if x.trailers then { x with got := patch x.got o.localPa m.data }
  else { x with headers := patch x.headers o.localPa m.data }

/-- The scan that waits for a tag takes its answer; none waits. -/
def State.scanAnswer (s : State) (m : Msg) : Option State :=
  match s.host.scans.find? (fun x => x.outst.any (fun o => o.txn == m.txn)) with
  | none => none
  | some x =>
    match x.outst.find? (fun o => o.txn == m.txn) with
    | none => none
    | some o => some { s with host := { s.host with scans := s.host.scans.map (fun y => if y.via = x.via then x.answer o m else y) } }

/-- An answer goes to what waits for its tag; an answer that nothing waits for has no effect. A REFUSE of a checkpoint write counts as missing (R445). -/
def State.answered (s : State) (m : Msg) : State :=
  match s.stageWaiting m.txn with
  | some (d, c, i, g, o) => s.stageAnswer d c i g o m
  | none =>
    match s.upeWaiting m.txn with
    | some (e, c, r) => if m.typ = 5 then s else (s.moved (e / 2) c).upeAnswer e c r m
    | none =>
      match s.scanAnswer m with
      | some s => s
      | none => s

/-- An answer of a type arrives on a port; it is refused as any message with another rank or a job of no local context (R443). DEDUCED (log 58): a REFUSE of a forwarded record is counted first, whatever its job, and goes no further. -/
def State.takeAnswer (s : State) (p typ : Nat) : State :=
  match s.takeMsg p typ with
  | none => s
  | some (s, m, mine) =>
    if !mine then s
    else if m.typ = 5 ∧ m.txn = eventTxn then s.forwardLost
    else match s.acceptHead m with
    | .inl reason => s.refuseMsg p m reason
    | .inr _ => s.answered m

/-- READ_DATA (R449). -/
def execReadData (p : Fin 12) (s : State) : Host.Outcome State Fault Refusal := .next (s.served (fun s => s.takeAnswer p.val 3))
/-- ACK (R444). -/
def execAck (p : Fin 12) (s : State) : Host.Outcome State Fault Refusal := .next (s.served (fun s => s.takeAnswer p.val 4))
/-- REFUSE (R445, R450). -/
def execRefuse (p : Fin 12) (s : State) : Host.Outcome State Fault Refusal := .next (s.served (fun s => s.takeAnswer p.val 5))

/-- CE_SEED_WRITE (R452, R459). -/
def execCeSeedWrite (ag : Agent) (d : Fin 8) (c : Fin 64) (v : W32) (s : State) : Host.Outcome State Fault Refusal :=
  .next (s.write ag (s.bar0 (.ce d.val) + 0x800 + 4 * c.val) v.toNat)

end Sys2Proof.Machine
end

