-- ==== Sys2Proof/Machine/ResetOps.lean ====
section
/-! DEFINITION. The reset levels: of a block, a context, a region, the module; what a function's reset and the disabling of virtual functions do (R312, R362, R364, R366, R472, R504 to R509). -/
namespace Sys2Proof.Machine

/-! ## Blocks (R61, R507) -/

/-- Release a frozen unit without its reset: registers whose mismatch froze it take their reset values, rewritten since or not (R61). -/
def Frame.release (fr : Frame) (reset : Nat → Nat) : Frame :=
  { fr with
    regs := fr.failed.foldl (fun t o => tset t o (BitVec.ofNat 32 (reset o))) fr.regs
    badParity := fr.badParity.filter (fun o => !fr.failed.contains o), reported := [], failed := [], frozen := false }

/-- Release the unit of a frame. -/
def State.releaseFrame (s : State) (f : FrameId) : State := if s.ownFrozen f then s.modFrame f (fun fr => fr.release (s.resetOf f)) else s

/-- Release the units of several frames. -/
def State.releaseFrames (s : State) : List FrameId → State
  | [] => s
  | f :: r => (s.releaseFrame f).releaseFrames r

/-- The running descriptors of an engine stop, without STATUS or arrival (R411); its wait entries are withdrawn (R312). -/
def State.stopEngine (s : State) (e : Nat) : State :=
  { s with
    upes := tdelWhere s.upes (fun k => k.1 == e), turns := tdel s.turns e
    sync := { s.sync with waits := s.sync.waits.filter (fun w => match w.who with | .upe j _ => j.val != e | _ => true) } }

/-- Block reset of a stack controller with its update engine (R421, R507). -/
def State.blockResetStack (s : State) (d j : Nat) : State :=
  let s := s.stopEngine (2 * d + j)
  let s := s.releaseFrames [.stk d j, .upe d j]
  s.setReg (.upe d j) 0 0

/-- The frames of a port and its lanes. -/
def portFrames (p : Nat) : List FrameId := FrameId.port p :: (List.range 8).map (fun l => FrameId.lane p l)

/-- Block reset of a link port: DOWN, its replay buffer and what it received discarded, its frames reset (R438, R507). -/
def State.blockResetPort (s : State) (p : Nat) : State :=
  let s := s.portDown p
  let s : State := { s with links := { s.links with ports := tdel s.links.ports p, margins := tdelWhere s.links.margins (fun k => k.1 == p) } }
  s.resetFrames (portFrames p)

/-- The stages of every context on a collective engine end with ABANDONED. -/
def State.abandonAll (s : State) (d : Fin 8) : List Nat → State
  | [] => s
  | c :: r => (if h : c < 64 then s.stagesAbandon d ⟨c, h⟩ else s).abandonAll d r

/-- A collective engine's frame and generators after reset; its rings wait no longer. -/
def State.clearCe (s : State) (d : Nat) : State :=
  let s : State := { s with
    links := { s.links with ceGens := tdelWhere s.links.ceGens (fun k => k.1 == d) }
    sync := { s.sync with waits := s.sync.waits.filter (fun w => match w.who with | .ce e _ => e.val != d | _ => true) } }
  s.resetFrame (.ce d)

/-- Block reset of a collective engine (R450, R507). -/
def State.blockResetCe (s : State) (d : Fin 8) : State := (s.abandonAll d (List.range 64)).clearCe d.val

/-! ## Contexts (R364, R366, R412, R450) -/

/-- Block reset of several cores. -/
def State.blockResetCores (s : State) : List Nat → State
  | [] => s
  | k :: r => (s.blockResetCore k).blockResetCores r

/-- The running descriptors of a context end with ABANDONED on every engine. -/
def State.abandonLayers (s : State) (c : Fin 64) : List Nat → State
  | [] => s
  | e :: r => (if h : e < 16 then s.upeAbandon ⟨e, h⟩ c else s).abandonLayers c r

/-- The stages of a context end with ABANDONED on every engine. -/
def State.abandonStages (s : State) (c : Fin 64) : List Nat → State
  | [] => s
  | d :: r => (if h : d < 8 then s.stagesAbandon ⟨d, h⟩ c else s).abandonStages c r

/-- The objects of several physical ranges take the state of R312. -/
def State.clearRanges (s : State) : List Nat → State
  | [] => s
  | p :: r => (s.clearRange p).clearRanges r

/-- The cores lent to a context. -/
def State.coresLent (s : State) (c : Nat) : List Nat :=
  (List.range 128).filter (fun k => (s.catCore k).state == 1 && (s.catCore k).ctx == c)

/-- The physical sync ranges lent to a context. -/
def State.rangesLent (s : State) (c : Nat) : List Nat := (List.range 64).filterMap (fun r => s.syncRange c r)

/-- Context reset (R366): its cores are left in block reset and stopped, its sync objects cleared, its descriptors and stages abandoned, a freeze released. -/
def State.contextReset (s : State) (c : Fin 64) : State :=
  let s := s.blockResetCores (s.coresLent c.val)
  let s := (s.abandonLayers c (List.range 16)).abandonStages c (List.range 8)
  let s := s.clearRanges (s.rangesLent c.val)
  { s with sync := { s.sync with frozen := s.sync.frozen.filter (fun x => x != c.val) } }

/-! ## Regions (R312, R503, R506) -/

/-- Every object of a region takes its reset state; the region's wait entries are withdrawn (R312). -/
def State.resetSync (s : State) (d : Nat) : State :=
  let s : State := { s with sync := { s.sync with
    objs := tdelWhere s.sync.objs (fun o => objRegion o == d)
    timers := tdel s.sync.timers d
    waits := s.sync.waits.filter (fun w => waiterRegion w.who != d)
    reports := tdelWhere s.sync.reports (fun k => k.1 == d) } }
  s.resetFrame (.sync d)

/-- Block reset of the ports of a region. -/
def State.resetPorts (s : State) : List Nat → State
  | [] => s
  | p :: r => (s.blockResetPort p).resetPorts r

/-- LNK_CTRL.ENABLE of several ports set as it was (R506). -/
def State.reEnable (s was : State) : List Nat → State
  | [] => s
  | p :: r => (if (was.reg (.port p) 0).testBit 0 then s.setReg (.port p) 0 1 else s).reEnable was r

/-- Region reset (R504, R506): descriptors stop without arrival, stages end with ABANDONED as a block reset ends them; the ports go DOWN and, still enabled, train again (log 35); the catalogue and the event hub stand; the quarantine is lifted. -/
def State.regionReset (s : State) (d : Nat) : State :=
  let before := s
  let s := s.blockResetCores ((List.range 16).map (· + 16 * d))
  let s := (s.stopEngine (2 * d)).stopEngine (2 * d + 1)
  let s := if h : d < 8 then s.blockResetCe ⟨d, h⟩ else s
  let s := (s.resetFrames [.stk d 0, .stk d 1, .upe d 0, .upe d 1, .evt d]).resetSync d
  let ports := [0, 1].filterMap (portAt d)
  let s := (s.resetPorts ports).reEnable before ports
  let s := s.releaseFrames [.rctl d, .rpwr d, .csv d, .csvCal d, .ptb d]
  (s.setRegion d { s.region d with fenced := false, clockLost := false }).clockRuns d

/-! ## The module (R462, R504, R505, R509, R513) -/

/-- The catalogue after module reset: GEN fields stay (R505). -/
def Catalogue.reset (c : Catalogue) : Catalogue :=
  { cores := c.cores.map (fun e => (e.1, { e.2 with ctx := 0, state := 0 }))
    granules := c.granules.map (fun e => (e.1, { e.2 with ctx := 0, lent := true })) }

/-- Mark the cores of a region that its site map leaves absent (R18). -/
def State.markAbsent (s : State) : List Nat → State
  | [] => s
  | k :: r =>
    let s : State := if s.siteOf k = 0xFF then { s with cat := { s.cat with cores := tset s.cat.cores k { s.catCore k with state := 3 } } } else s
    s.markAbsent r

/-- The event fabric after module reset: what is at the root, and in the registrar's own outboxes, stays (R513). -/
def EventSt.reset (e : EventSt) : EventSt :=
  { outbox := tdelWhere e.outbox (fun k => hopOf k.1 != 8), root := e.root, served := e.served }

/-- The host side after module reset: Moant, its dockets and SMBus go on, and so does what waits for a docket; letterboxes are reset (R462, R467, R472, R473). A docket that had begun begins again (log 71). -/
def HostSt.reset (h : HostSt) : HostSt :=
  { h with
    dockets := h.dockets.map (fun d => { d with begun := false })
    replies := tdelWhere h.replies (fun v => v != .smb)
    watchIds := [], scans := [] }

/-- A conservator after module reset: it starts from the ledger (R502). -/
def Conservator.restart (x : Conservator) (entry : Option LedgerEntry) : Conservator :=
  { minutes := (match entry with | some e => e.minutes | none => x.minutes), cap := (match entry with | some e => e.cap | none => x.cap), table := x.table, drift := x.drift }

/-- The clocks and grants after module reset. -/
def Power.restart (x : Power) : Power :=
  { x with ready := false, resetting := true, armed := false, grants := List.replicate 8 0, steps := List.replicate 8 0, goals := List.replicate 8 0, caps := List.replicate 8 56
           tables := [], vcore := [], activity := [], blockGrants := [], lent := [], gates := [], railAt := 0, lastArb := none, excursion := none, lastExcursion := none }

/-- Module reset (R504, R505, R509): the fuse shadow is loaded (R21, R539), and everything is reset but device memory, the strongroom, Moant, the host limit, TEST_ENABLE, records already at the root and the catalogue's GEN fields. -/
def State.moduleReset (s : State) : State :=
  let s : State := { s with
    frames := [], cores := [], arrays := [], aes := [], caches := [], active := [], pm := {}, cat := s.cat.reset
    regions := s.srm.fuse.map (fun e => (e.1, ⟨e.2.1, e.2.2, false, false⟩))
    ev := s.ev.reset, sync := {}, upes := [], turns := [], links := {}, host := s.host.reset
    srm := { s.srm with shadow := s.srm.record2 }
    csvs := s.csvs.map (fun e => (e.1, e.2.restart ((s.srm.ledger.find? (fun l => l.1 == e.1)).map (·.2)))), pwr := s.pwr.restart }
  s.markAbsent (List.range 128)

/-! ## Functions (R364, R472) -/

/-- A sync range of a disabled context returns to context 0: under its own virtual number if that is free there, else under the lowest free one; with none free it is lent to no context (log 72). -/
def giveRange (c : Nat) (t : Tbl (Nat × Nat) (Option Nat)) (r : Nat) : Tbl (Nat × Nat) (Option Nat) :=
  match tget t (c, r) none with
  | none => t
  | some p =>
    let t := tset t (c, r) none
    match (r :: List.range 64).find? (fun v => (tget t (0, v) (some v)).isNone) with
    | some v => tset t (0, v) (some p)
    | none => t

/-- Everything lent to a disabled context returns to context 0 (R364). -/
def Catalogue.takeBack (cat : Catalogue) (c : Nat) : Catalogue :=
  let mine := fun (t : Tbl (Nat × Nat) Nat) (u : Nat × Nat) => tget t (c, u.2) 0
  let give := fun (t : Tbl (Nat × Nat) Nat) (us : List Nat) =>
    us.foldl (fun t u => tset (tset t (0, u) (tget t (0, u) 16 + mine t (0, u))) (c, u) 0) t
  { cores := cat.cores.map (fun e => if e.2.ctx = c ∧ e.2.state = 1 then (e.1, { e.2 with ctx := 0 }) else e)
    granules := cat.granules.map (fun e => if e.2.lent ∧ e.2.ctx = c then (e.1, { e.2 with ctx := 0 }) else e)
    ranges := (List.range 64).foldl (giveRange c) cat.ranges
    linkShares := give cat.linkShares ((List.range 12).filter (fun u => mine cat.linkShares (0, u) ≠ 0))
    upeShares := give cat.upeShares ((List.range 16).filter (fun u => mine cat.upeShares (0, u) ≠ 0)) }

/-- An event ring that no longer lies in granules of its context is disabled (R535). -/
def State.ringLost (s : State) (c : Nat) : State :=
  match (s.ev.rings.find? (fun e => e.1 == c)).map (·.2) with
  | none => s
  | some x =>
    if c = 0 ∨ s.rangeLent c x.addr (0x80 + 64 * 2 ^ x.log2) then s
    else
      let off := 0x108 + 16 * c
      let s : State := { s with ev := { s.ev with rings := tdel s.ev.rings c } }
      (s.setReg .revt off (s.reg .revt off % 2 ^ 31)).raise .revt 0x40 1

/-- The frames of a function and its MSI-X table take their reset values: every vector masked (R472; log 82). -/
def State.functionReset (s : State) (c : Nat) : State :=
  let s := ((s.resetFrame (.func c)).resetFrame (.lb c)).modFn c (fun x => { x with msix := List.replicate 32 { masked := true }, msixPending := [] })
  { s with host := { s.host with replies := tdelWhere s.host.replies (fun v => v == viaLb c), watchIds := tdelWhere s.host.watchIds (fun k => k.1 == c) } }

/-- Disable a virtual function: context reset, then everything lent to its context returns to context 0 (R364; log 72). -/
def State.disableVf (s : State) (c : Fin 64) : State :=
  let s := s.contextReset c
  let s : State := { s with cat := s.cat.takeBack c.val }
  (s.ringLost c.val).functionReset c.val

/-- Disable several virtual functions. -/
def State.disableVfs (s : State) : List Nat → State
  | [] => s
  | c :: r => (if h : c < 64 then s.disableVf ⟨c, h⟩ else s).disableVfs r

/-- Whether a function's reset must wait: a docket of it is accepted and unanswered, or a core of its context is in a loan (R472). -/
def State.functionBusy (s : State) (c : Nat) : Bool :=
  s.docketBusy (viaLb c) || (List.range 128).any (fun k => (s.core k).loan.isSome && s.coreCtx k == some c)

/-- A function's reset, if nothing holds it. -/
def State.tryFlr (s : State) (c : Nat) : State :=
  if s.functionBusy c then s
  else
    let s : State := { s with host := { s.host with flr := s.host.flr.filter (fun x => x != c) } }
    let s := s.functionReset c
    (if h : c < 64 then s.contextReset ⟨c, h⟩ else s).raise (.func c) 0x10 5

/-- The resets of several functions. -/
def State.tryFlrs (s : State) : List Nat → State
  | [] => s
  | c :: r => (s.tryFlr c).tryFlrs r

/-- What waited for a docket to be answered: function resets, and the disabling of the virtual functions. -/
def State.afterDocket (s : State) : State :=
  let s := s.tryFlrs s.host.flr
  let vfs := (List.range s.host.vfs).map (· + 1)
  if s.host.vfOff && !(vfs.any s.functionBusy) then
    let s := s.disableVfs vfs
    { s with host := { s.host with vfs := 0, vfOff := false } }
  else s

end Sys2Proof.Machine
end

