-- ==== Sys2Proof/Machine/DocketOps.lean ====
section
/-! DEFINITION. Dockets: their layout, the table of opcodes, the checks before execution, subjects and their order, the reply (R473 to R480). -/
namespace Sys2Proof.Machine

/-! ## Layout (R474, R475) -/

/-- OPCODE. -/
def dOpcode (b : List Byte) : Nat := fieldAt b 0 2
/-- LENGTH. -/
def dLength (b : List Byte) : Nat := fieldAt b 2 2
/-- CONTEXT. -/
def dContext (b : List Byte) : Nat := fieldAt b 8 1

/-- A row of the opcode table (R477): sizes of the parameters, whether virtual functions may use it, whether it runs on standby alone. -/
structure DocketRow where
  sizes : List Nat
  vf : Bool := false
  standby : Bool := false
  deriving DecidableEq, Repr

/-- The opcode table (R477). ECHO carries any bytes. -/
def docketRow (op : Nat) : Option DocketRow :=
  match op with
  | 0x0100 => some { sizes := [2, 1, 8, 8, 8] }
  | 0x0101 => some { sizes := [2, 1] }
  | 0x0102 => some { sizes := [1, 2, 1] }
  | 0x0103 => some { sizes := [1, 1, 1] }
  | 0x0104 => some { sizes := [1, 2, 2, 8], vf := true, standby := true }
  | 0x0105 => some { sizes := [2] }
  | 0x0200 => some { sizes := [2] }
  | 0x0201 => some { sizes := [2] }
  | 0x0202 => some { sizes := [2] }
  | 0x0203 => some { sizes := [2, 2] }
  | 0x0204 => some { sizes := [2, 2] }
  | 0x0205 => some { sizes := [1, 1, 2, 2, 8] }
  | 0x0206 => some { sizes := [1] }
  | 0x0207 => some { sizes := [1] }
  | 0x0208 => some { sizes := [] }
  | 0x0300 => some { sizes := [], standby := true }
  | 0x0301 => some { sizes := [1] }
  | 0x0302 => some { sizes := [] }
  | 0x0303 => some { sizes := [] }
  | 0x0304 => some { sizes := [2, 8] }
  | 0x0305 => some { sizes := [1, 8], vf := true }
  | 0x0306 => some { sizes := [1, 1] }
  | 0x0400 => some { sizes := [2, 8, 8], vf := true }
  | 0x0500 => some { sizes := [], vf := true }
  | 0x0501 => some { sizes := [2], vf := true }
  | 0x0600 => some { sizes := [2] }
  | 0x0601 => some { sizes := [], vf := true, standby := true }
  | 0x0700 => some { sizes := [2, 4, 2], standby := true }
  | 0x0701 => some { sizes := [8, 4], standby := true }
  | 0x0800 => some { sizes := [8, 4], standby := true }
  | 0x0801 => some { sizes := [], standby := true }
  | 0x0802 => some { sizes := [], vf := true, standby := true }
  | 0x0900 => some { sizes := [], standby := true }
  | 0x0901 => some { sizes := [], standby := true }
  | 0x0A00 => some { sizes := [], vf := true, standby := true }
  | 0x0A01 => some { sizes := [], vf := true, standby := true }
  | _ => none

/-- The next multiple of a size. -/
def alignUp (a n : Nat) : Nat := (a + n - 1) / n * n

/-- Where each parameter lies, from offset `a`, and where they end. -/
def placeParams : Nat → List Nat → List Nat × Nat
  | a, [] => ([], a)
  | a, n :: r =>
    let p := alignUp a n
    let (l, e) := placeParams (p + n) r
    (p :: l, e)

/-- The offset of parameter `i` of an opcode. -/
def paramAt (op i : Nat) : Nat :=
  match docketRow op with
  | some r => (placeParams 0x10 r.sizes).1.getD i 0
  | none => 0

/-- Parameter `i` of a docket. -/
def param (b : List Byte) (i : Nat) : Nat :=
  match docketRow (dOpcode b) with
  | some r => fieldAt b (paramAt (dOpcode b) i) (r.sizes.getD i 0)
  | none => 0

/-- LENGTH as the opcode requires it. -/
def docketLength (op : Nat) : Option Nat :=
  if op = 0x0A01 then none else (docketRow op).map (fun r => alignUp (placeParams 0x10 r.sizes).2 4 + 4)

/-- Results packed at their natural alignment from offset 0x10. -/
def packResults : Nat → List (Nat × Nat) → List Byte
  | _, [] => []
  | a, (n, v) :: r => List.replicate (alignUp a n - a) 0 ++ leBytes n v ++ packResults (alignUp a n + n) r

/-! ## Checks (R475, R476) -/

/-- Statuses of R476. -/
def stOk : Nat := 0
/-- INVALID. -/
def stInvalid : Nat := 1
/-- BUSY. -/
def stBusy : Nat := 2
/-- FAILED. -/
def stFailed : Nat := 3
/-- DENIED. -/
def stDenied : Nat := 4

/-- The function a docket came from; none for SMBus, which has the rights of the physical function. -/
def viaFn : Via → Nat
  | .lb f => f.val
  | .smb => 0

/-- Dockets on standby's list that still reach device memory (log 73). -/
def reachesMemory (op : Nat) : Bool := op == 0x0104 || op == 0x0701 || op == 0x0800

/-- The first failing check before the parameters: LENGTH, CRC, OPCODE, permission, the 60 V input, then a module that is in reset. -/
def State.docketCheck (s : State) (v : Via) (b : List Byte) : Option Nat :=
  let op := dOpcode b
  let len := dLength b
  let f := viaFn v
  if len < 20 ∨ 1024 < len ∨ len % 4 ≠ 0 ∨ b.length < len ∨ (docketLength op).any (fun n => n != len) then some 6
  else if crc32 (b.take (len - 4)) ≠ fieldAt b (len - 4) 4 then some 5
  else match docketRow op with
  | none => some 7
  | some r =>
    if f ≠ 0 ∧ ¬(r.vf ∧ dContext b = f) then some stDenied
    else if !r.standby && !s.pwr.input then some 8
    else if (!r.standby || reachesMemory op) && !s.pwr.ready then some stBusy
    else none

/-- Whether a context exists: its function is enabled (R364). -/
def State.contextExists (s : State) (c : Nat) : Bool := decide (c ≤ s.host.vfs)

/-- Whether a range in device memory may be named: below the top, and for a virtual function lent to its context (R477). -/
def State.rangeNamed (s : State) (v : Via) (a n : Nat) : Bool :=
  let f := viaFn v
  if f = 0 then decide (a + n ≤ memTop) else s.rangeLent f a (max n 1)

/-! ## Subjects (R479) -/

/-- What a docket names. -/
inductive Subject where
  | nothing
  | module
  | region (d : Nat)
  | core (k : Nat)
  | granule (g : Nat)
  | range (p : Nat)
  | port (p : Nat)
  | engine (e : Nat)
  | ce (d : Nat)
  | context (c : Nat)
  deriving DecidableEq, Repr

/-- The subject of a docket. -/
def subjectOf (b : List Byte) : Subject :=
  let x := param b 0
  let y := param b 1
  let c := dContext b
  match dOpcode b with
  | 0x0100 => .core x
  | 0x0101 => .granule x
  | 0x0102 => .range y
  | 0x0103 => if x = 0 then .port y else .engine y
  | 0x0105 => .core x
  | 0x0200 => .module
  | 0x0201 => .module
  | 0x0202 => .context c
  | 0x0203 => .module
  | 0x0204 => .module
  | 0x0205 => .port y
  | 0x0206 => .module
  | 0x0207 => .port x
  | 0x0208 => .module
  | 0x0300 => .module
  | 0x0301 => .region x
  | 0x0302 => .context c
  | 0x0303 => .context c
  | 0x0304 => .core x
  | 0x0305 => .engine x
  | 0x0306 => if y < 16 then .core (16 * x + y) else if y < 18 then .engine (2 * x + (y - 16))
              else if y < 20 then (match portAt x (y - 18) with | some p => .port p | none => .nothing) else .ce x
  | 0x0500 => .context c
  | 0x0501 => .core x
  | 0x0701 => .module
  | 0x0800 => .module
  | 0x0801 => .module
  | 0x0900 => .module
  | 0x0901 => .module
  | _ => .nothing

/-- Whether one subject contains another. -/
def State.contains (s : State) (a b : Subject) : Bool :=
  match a, b with
  | .module, .nothing => false
  | .module, _ => true
  | .region d, .core k => k / 16 == d
  | .region d, .granule g => g / 160 == d
  | .region d, .port p => (portRegion p).1 == d
  | .region d, .engine e => e / 2 == d
  | .region d, .ce e => e == d
  | .context c, .core k => s.coreCtx k == some c
  | .context c, .granule g => s.granuleLent g c
  | .context c, .range p => (s.rangesLent c).contains p
  | _, _ => false

/-- Whether two subjects conflict. -/
def State.conflict (s : State) (a b : Subject) : Bool := a != .nothing && (a == b || s.contains a b || s.contains b a)

/-- Whether a docket may run: Moant runs, no earlier docket with a conflicting subject is unanswered, and fewer than 8 run. -/
def State.mayRun (s : State) (v : Via) : Bool :=
  let earlier := s.host.dockets.takeWhile (fun d => d.via != v)
  match s.host.dockets.find? (fun d => d.via == v) with
  | none => false
  | some d =>
    s.pwr.moant && !earlier.any (fun e => s.conflict (subjectOf e.bytes) (subjectOf d.bytes))
      && (d.begun || decide ((s.host.dockets.filter (fun e => e.begun)).length < 8))

/-! ## The reply (R473, R474, R476) -/

/-- What a docket's execution came to: it goes on, or a status with DETAIL and results. -/
inductive Ended where
  | goesOn
  | with (status detail : Nat) (results : List Byte)
  deriving DecidableEq, Repr

/-- A docket's execution: the state after, and how it ended. -/
structure Done where
  st : State
  e : Ended

/-- Done, with results. -/
def State.ok (s : State) (results : List Byte) : Done := ⟨s, .with stOk 0 results⟩
/-- A parameter is refused: DETAIL is its offset. -/
def State.invalid (s : State) (off : Nat) : Done := ⟨s, .with stInvalid off []⟩
/-- The subject's state forbids the docket now. -/
def State.busy (s : State) : Done := ⟨s, .with stBusy 0 []⟩
/-- Attempted and failed. -/
def State.failed (s : State) (detail : Nat) : Done := ⟨s, .with stFailed detail []⟩

/-- A reply's bytes; a docket too short to hold TAG counts as followed by zeros. -/
def replyBytes (b : List Byte) (status detail : Nat) (results : List Byte) : List Byte :=
  let r := if status = 0 then results ++ List.replicate (alignUp results.length 4 - results.length) 0 else []
  let body := u16 (dOpcode b) ++ u16 (20 + r.length) ++ ((b ++ List.replicate 8 0).drop 4).take 4 ++ u16 status ++ u16 0 ++ u32 detail ++ r
  body ++ u32 (crc32 body)

/-- Moant answers a docket: the reply is written, and what waited for it goes on. A function being reset, or a virtual function being disabled, gets none (R472). -/
def State.reply (s : State) (v : Via) (b : List Byte) (status detail : Nat) (results : List Byte) : State :=
  let s : State := { s with host := { s.host with dockets := s.host.dockets.filter (fun d => d.via != v) } }
  let put := fun (s : State) => ({ s with host := { s.host with replies := tset s.host.replies v (replyBytes b status detail results) } } : State)
  let s : State := match v with
    | .smb =>
      let s := put s
      { s with host := { s.host with smbPos := 0 }, out := s.out ++ [.smbAlert true] }
    | .lb f =>
      if s.host.flr.contains f.val || (s.host.vfOff && f.val != 0) then s
      else
        let s := (put s).raise (.lb f.val) 0x10 0
        if (fieldAt b 9 1).testBit 0 then s.msix f.val 0 else s
  s.afterDocket

/-- A docket's execution begins and goes on at a later command. -/
def State.begun (s : State) (v : Via) : State :=
  { s with host := { s.host with dockets := s.host.dockets.map (fun d => if d.via = v then { d with begun := true } else d) } }

/-- Answer or go on. -/
def Done.settle (d : Done) (v : Via) (b : List Byte) : State :=
  match d.e with
  | .goesOn => d.st.begun v
  | .with status detail results => d.st.reply v b status detail results

/-- One docket row: the docket of an interface, when it is this row's and may run, is checked and executed. A docket with an opcode that is not defined is answered by whichever row is presented; one whose accesses a frozen stack controller does not accept waits with them. -/
def State.runDocket (s : State) (op : Nat) (v : Via) (act : State → List Byte → Done) : State :=
  match s.host.dockets.find? (fun d => d.via == v) with
  | none => s
  | some d =>
    let b := d.bytes
    if (dOpcode b ≠ op ∧ (docketRow (dOpcode b)).isSome) ∨ !s.mayRun v then s
    else match (if d.begun then none else s.docketCheck v b) with
    | some status => s.reply v b status 0 []
    | none => s.served (fun s => (act s b).settle v b)

end Sys2Proof.Machine
end

