-- ==== Sys2Proof/Machine/LoanOps.lean ====
section
/-! DEFINITION. The loan image and the steps of a core loan (R369 to R374). -/
namespace Sys2Proof.Machine

/-! ## The image's layout (R373) -/

/-- Bytes of a loan image. -/
def loanBytes : Nat := 0x292000
/-- MAGIC of a loan image. -/
def loanMagic : Nat := 0x4E414F4C

/-- Control-unit registers of the image, in its order. -/
def loanCuRegs : List Nat :=
  [0x508, 0x50C, 0x518, 0x51C, 0x520, 0x524, 0x528, 0x52C, 0x530, 0x534, 0x220, 0x230, 0x240, 0x244, 0x210,
   0x400, 0x404, 0x408, 0x410, 0x414, 0x418, 0x420, 0x460]

/-- The registers of the image from 0x44 on, after CORE_STAT. -/
def loanRegs (k : Nat) : List (FrameId × Nat) :=
  loanCuRegs.map (fun o => (FrameId.cu k, o)) ++ [(.ae k, 0), (.ae k, 4), (.ae k, 8), (.mc k, 0)]
    ++ (List.range 4).map (fun a => (FrameId.tcu k a, 4))

/-- The status registers whose flags the image holds. -/
def loanStatus : List Nat := [0x200, 0x228, 0x250, 0x254]

/-- Where the image of store `t` of array `a` lies: T tiles, then accumulators. -/
def storeAt (a t : Nat) : Nat :=
  0x88000 + a * 0x82800 + (if t < 8 then t * 0x8400 else 0x42000 + (t - 8) * 0x20400)

/-- The pages of a mask of dirty pages, 128 of them. -/
def dirtyPages (m : Nat) : List Nat := (List.range 128).filter (fun p => m.testBit p)

/-- CORE_DMEM_DIRTY0 to 3 as one mask. -/
def State.dirtyMask (s : State) (k : Nat) : Nat := packWords 32 ((List.range 4).map (fun i => s.reg (.cu k) (0x440 + 4 * i)))

/-! ## Saving (steps 3 and 4) -/

/-- Write a piece of the image through the core's cache. -/
def State.savePiece (s : State) (k pa : Nat) (data : List Byte) (poison : Bool := false) : State :=
  s.writeLines k none (lineGroups (partsOf poison (sectorPieces pa data.length) data))

/-- The first 0x1000 bytes of the image. -/
def State.loanHead (s : State) (k : Nat) (l : Loan) (old : Nat) (forced : Bool) : List Byte :=
  let c := s.core k
  let f := FrameId.cu k
  let stat := s.stat k % 16 + (if l.wasStopped then 16 else 0)
  let armed := packBits ((List.range 4).map (fun a => c.armed.any (fun e => e.1 == a)))
  let head := u32 loanMagic ++ u32 old ++ u32 (1 + 2 * b2n forced) ++ u32 (s.stkDepth k) ++ u64 c.pc.toNat
    ++ u64 (s.pendingMask k) ++ leBytes 16 (s.dirtyMask k) ++ u64 (packWords 4 (c.vstk.reverse.map (fun v => v.poison.toNat))) ++ List.replicate 8 0
  let regs := u32 stat ++ (loanRegs k).flatMap (fun r => u32 (s.reg r.1 r.2))
  let times := (List.range 4).flatMap (fun a => u64 (tget c.armed a 0).toNat) ++ u32 armed
    ++ loanStatus.flatMap (fun o => u32 (tget (s.frame f).flags o 0).toNat)
  let top := head ++ regs ++ times
  top ++ List.replicate (0x200 - top.length) 0 ++ leBytes 256 (packBits ((List.range 2048).map (setHas c.dpoison))) ++ List.replicate 0xD00 0

/-- Write the on-core stacks, deepest first; what no entry fills is left to the hardware (log 76). -/
def State.saveStacks (s : State) (k base : Nat) : State :=
  let c := s.core k
  let ints := c.istk.reverse.flatMap (fun v => u64 v.toNat)
  let slots := c.vstk.reverse.flatMap (fun v => leBytes 1024 v.v.toNat)
  let fi := freeBytes s.freeCtr (256 - ints.length)
  let fv := freeBytes (s.freeCtr + 256) (16384 - slots.length)
  let s : State := { s with freeCtr := s.freeCtr + 16640 }
  (s.savePiece k (base + 0x1000) (ints ++ fi)).savePiece k (base + 0x2000) (slots ++ fv)

/-- Write the dirty pages of core data memory. -/
def State.savePages (s : State) (k base : Nat) : List Nat → State
  | [] => s
  | p :: r => (s.savePiece k (base + 0x8000 + 4096 * p) (s.dmemBytes k (4096 * p) 4096)).savePages k base r

/-- Write the marked rows of a store (R192). -/
def State.saveRows (s : State) (k base t : Nat) (v : TileStore) : List Nat → State
  | [] => s
  | r :: rs =>
    let s := if (v.raw r).mark then s.savePiece k (base + 0x400 + rowBytes t * r) (leBytes (rowBytes t) (v.raw r).bits.toNat) (v.raw r).poison else s
    s.saveRows k base t v rs

/-- Write the TSAVE image of one store (R191, R192). -/
def State.saveStore (s : State) (k a base t : Nat) : State :=
  let v := (s.arr k a).store t
  let n := if t < 8 then 128 else 256
  let head := u32 v.cfg.toNat ++ u32 (b2n (!v.full) + 2 * b2n (decide (8 ≤ t))) ++ List.replicate 24 0 ++ leBytes 32 (if v.full then v.marks n else 0)
  let s := s.savePiece k base head
  if v.full then (s.savePiece k (base + 0x40) ((sideOf v).flatMap u16)).saveRows k base t v (List.range n) else s

/-- Write the images of several stores. -/
def State.saveStores (s : State) (k base : Nat) : List (Nat × Nat) → State
  | [] => s
  | (a, t) :: r => (s.saveStore k a (base + storeAt a t) t).saveStores k base r

/-- Every store of a core. -/
def allStores : List (Nat × Nat) := (List.range 4).flatMap (fun a => (List.range 10).map (fun t => (a, t)))

/-- Save a core's state (R369 steps 3 and 4). -/
def State.saveImage (s : State) (k : Nat) (l : Loan) (old : Nat) (forced : Bool) : State :=
  let s := s.saveStores k l.save allStores
  let s := s.savePiece k l.save (s.loanHead k l old forced)
  let s := s.saveStacks k l.save
  let s := s.savePiece k (l.save + 0x6000) ((s.gensOf k).flatMap (fun g => u32 g.toNat))
  s.savePages k l.save (dirtyPages (s.dirtyMask k))

/-! ## Restoring (step 7) -/

/-- A register restored from an image word: its writable bits only, limited as a write of it is, so that every other bit still reads as the register's rule says (R121, R127, R134, R154, R175, R381). -/
def State.restoreReg (s : State) (f : FrameId) (r word : Nat) : State :=
  s.setReg f r (limited f r (viewValue 0 (s.reg f r) (rwMask f r) word))

/-- Restore the registers of the image. -/
def State.restoreRegs (s : State) (b : List Byte) : Nat → List (FrameId × Nat) → State
  | _, [] => s
  | o, (f, r) :: rs => (s.restoreReg f r (fieldAt b o 4)).restoreRegs b (o + 4) rs

/-- The flags a status register of the control unit has (R124). -/
def flagMask (r : Nat) : Nat := match regInfo (.cu 0) r with | some i => i.mask % 65536 | none => 0

/-- Restore the flags of the image, those the register has: each is a new event (R374). -/
def State.restoreFlags (s : State) (k : Nat) (b : List Byte) : Nat → List Nat → State
  | _, [] => s
  | o, r :: rs => (s.raiseMask (.cu k) r (fieldAt b o 4 &&& flagMask r)).restoreFlags k b (o + 4) rs

/-- The causes of an image pend again; what the image does not hold of them is left open (log 77). INT_TIMER and INT_DOORBELL follow their registers. -/
def State.restorePend (s : State) (k mask : Nat) : Nat → State
  | 0 => s
  | n + 1 =>
    let s := s.restorePend k mask n
    if mask.testBit n ∧ n ≠ 32 ∧ n ≠ 33 then
      let fresh := (fun i => Config.freeValue (s.freeCtr + i))
      ({ s with freeCtr := s.freeCtr + 2 } : State).pendCause k
        { code := n, precise := s.preciseArith k && decide (17 ≤ n) && decide (n < 30), addr := fresh 0, info := fresh 1 }
    else s

/-- Restore a page of core data memory: its poisoned sectors poison their blocks (log 78). -/
def State.restorePage (s : State) (k ctx base p : Nat) : State :=
  let put := fun (s : State) (b : Nat) =>
    let a := 4096 * p + 256 * b
    let r := s.readPhys (.cu k) ctx (base + 0x8000 + a) 256
    r.st.modCore k (fun c => { c with dmem := memPut c.dmem a r.bytes, dpoison := if r.poison then setAdd c.dpoison (a / 256) else c.dpoison })
  (List.range 16).foldl put s

/-- Restore pages of core data memory. -/
def State.restorePages (s : State) (k ctx base : Nat) : List Nat → State
  | [] => s
  | p :: r => (s.restorePage k ctx base p).restorePages k ctx base r

/-- Restore the marked rows of a store (R192, R194). -/
def State.restoreRows (s : State) (k a ctx base t : Nat) (marks : Nat) : List Nat → State
  | [] => s
  | r :: rs =>
    let s : State :=
      if marks.testBit r then
        let side := s.readPhys (.cu k) ctx (base + 0x40 + 2 * r) 2
        let row := side.st.readPhys (.cu k) ctx (base + 0x400 + rowBytes t * r) (rowBytes t)
        let sv := leNat side.bytes
        let v : TileRow := { bits := BitVec.ofNat 4096 (leNat row.bytes), mark := true, tag := BitVec.ofNat 10 sv
                             poison := sv.testBit 15 || row.poison || side.poison }
        row.st.modArr k a (fun y => y.setStore t ((y.store t).setRow r v))
      else s
    s.restoreRows k a ctx base t marks rs

/-- Restore one store; one whose header TRESTORE would refuse stays as after reset (log 78). -/
def State.restoreStore (s : State) (k a ctx base t : Nat) : State :=
  let h := s.readPhys (.cu k) ctx base 64
  let fl := fieldAt h.bytes 4 4
  let cfg := BitVec.ofNat 32 (fieldAt h.bytes 0 4)
  let s := h.st
  if h.poison || fl.testBit 1 != decide (8 ≤ t) || decide (4 ≤ fl) || !cfgValid t cfg then s
  else
    let s := s.modArr k a (fun y => y.setStore t { cfg := cfg, full := !fl.testBit 0 })
    if fl.testBit 0 then s
    else s.restoreRows k a ctx base t (leNat ((h.bytes.drop 0x20).take 32)) (List.range (if t < 8 then 128 else 256))

/-- Restore stores. -/
def State.restoreStores (s : State) (k ctx base : Nat) : List (Nat × Nat) → State
  | [] => s
  | (a, t) :: r => (s.restoreStore k a ctx (base + storeAt a t) t).restoreStores k ctx base r

/-- The on-core stacks of the image. -/
def State.restoreStacks (s : State) (k ctx base depth poison : Nat) : State :=
  let ni := min (depth % 256) 32
  let nv := min (depth / 256 % 256) 16
  let ri := s.readPhys (.cu k) ctx (base + 0x1000) 256
  let rv := ri.st.readPhys (.cu k) ctx (base + 0x2000) 16384
  let ints := (List.range ni).map (fun i => BitVec.ofNat 64 (fieldAt ri.bytes (8 * i) 8))
  let slots := (List.range nv).map (fun i =>
    (⟨BitVec.ofNat 8192 (fieldAt rv.bytes (1024 * i) 1024), if rv.poison then 15 else BitVec.ofNat 4 (bits poison (4 * i) 4)⟩ : VSlot))
  rv.st.modCore k (fun c => { c with istk := ints.reverse, vstk := slots.reverse })

/-- The image's head, read for its check. -/
def State.imageTop (s : State) (k ctx base : Nat) : Rd := s.readPhys (.cu k) ctx base 0x1000

/-- Whether a restore accepts an image (R374); a head that reads poisoned is not correct (log 78). -/
def imageOkay (r : Rd) (ctx : Nat) : Bool :=
  !r.poison && fieldAt r.bytes 0 4 == loanMagic && (fieldAt r.bytes 8 4).testBit 0 && fieldAt r.bytes 4 4 == ctx

/-- Restore a core's state from an accepted image (R371, R374): every page of core data memory is written; INV_DONE stands from step 5 or the MCINV.ALL in its place. -/
def State.restoreImage (s : State) (k ctx base : Nat) (b : List Byte) : State :=
  let stat := fieldAt b 0x40 4 % 32
  let dirty := fieldAt b 0x20 16
  let dp := (List.range 2048).filter (fun i => (fieldAt b 0x200 256).testBit i)
  let g := s.readPhys (.cu k) ctx (base + 0x6000) 1024
  let armed := (List.range 4).filterMap (fun a => if (fieldAt b 0xE0 4).testBit a then some (a, BitVec.ofNat 64 (fieldAt b (0xC0 + 8 * a) 8)) else none)
  let s := (g.st.raise (.mc k) 0x10 0).modCore k (fun c => { c with
    pc := codeAddr (BitVec.ofNat 64 (fieldAt b 0x10 8)), dmem := [], dpoison := dp, armed := armed
    gens := (List.range 256).map (fun i => BitVec.ofNat 32 (fieldAt g.bytes (4 * i) 4)) })
  let s := s.restorePages k ctx base (dirtyPages dirty)
  let s := (s.restoreRegs b 0x44 (loanRegs k)).setStat k stat
  let s := (List.range 4).foldl (fun s i => s.setReg (.cu k) (0x440 + 4 * i) (bits dirty (32 * i) 32)) s
  let s := s.restoreFlags k b 0xE4 loanStatus
  let s := s.restorePend k (fieldAt b 0x18 8) 35
  let s := s.restoreStacks k ctx base (fieldAt b 0xC 4) (fieldAt b 0x30 8)
  s.restoreStores k ctx base allStores

/-- A fresh start (R371): on a core in block reset, supervisor with interrupts held, running. -/
def State.freshStart (s : State) (k : Nat) (pc : W64) : State :=
  (s.modCore k (fun c => { c with pc := codeAddr pc, dmem := [], dpoison := [] })).setStat k 3

/-! ## The steps -/

/-- What step 2 waits for (R369). -/
def State.loanQuiet (s : State) (k : Nat) : Bool :=
  s.tilesQuiet k && (s.ae k).descs.isEmpty && (s.port k).isEmpty && (s.ae k).queues.all (fun q => q.2.isEmpty) && (s.fenceWrites k).isEmpty

/-- Every write of a core on its way is performed, write-backs that wait for the frame included. -/
def State.performWrites (s : State) (k : Nat) : State :=
  let a := s.ae k
  let backs := ((a.frame ++ a.again).filter Req.evict).map (fun r => ({ parts := r.parts, evict := true } : PendWrite))
  let s := s.modAe k (fun a => { a with writes := [], frame := a.frame.filter (fun r => !r.evict), again := a.again.filter (fun r => !r.evict) })
  s.acceptAll k (a.writes ++ backs)

/-- An array whose work is abandoned: its stores stay. -/
def TileArray.abandon (x : TileArray) : TileArray :=
  { cycle := x.cycle, stores := x.stores, wActive := x.wActive, wActShape := x.wActShape
    wLoaded := x.wLoaded, wShape := x.wShape, wShadow := x.wShadow }

/-- Abandon a core's work as a freeze does (R372). -/
def State.abandonWork (s : State) (k : Nat) : State :=
  let s := (List.range 4).foldl (fun s a => s.modArr k a TileArray.abandon) s
  let s := s.modAe k (fun a => { a with queues := [], descs := [], frame := a.frame.filter Req.evict, again := a.again.filter Req.evict, slots := [] })
  let s : State := { s with sync := { s.sync with waits := s.sync.waits.filter (fun w => match w.who with | .desc j _ => j.val != k | _ => true) } }
  (s.setPort k []).performWrites k

/-- Steps 5 and 6: the cache cleaned and invalidated, the core reset, the catalogue rewritten. A FREE core's cache is invalidated only (R370). -/
def State.loanSwitch (s : State) (k : Nat) (l : Loan) : State :=
  let e := s.catCore k
  let s := if l.wasFree then s else (s.cleanAll k).performWrites k
  let s := (s.invalidateAll k).blockResetCore k
  let s := s.modCore k (fun c => { c with loan := none })
  { s with cat := { s.cat with cores := tset s.cat.cores k ⟨l.newCtx.getD 0, if l.newCtx.isSome then 1 else 0, e.gen + 1⟩ } }

/-- Steps 3 to 8 of a loan that has quiesced (R369 to R374). -/
def State.loanFinish (s : State) (k : Nat) (l : Loan) (forced : Bool) : Done :=
  let s := if l.save ≠ 0 ∧ !l.wasFree then s.saveImage k l (s.catCore k).ctx forced else s
  let s := s.loanSwitch k l
  match l.newCtx with
  | none => s.ok []
  | some c =>
    if l.restore = 0 then (s.freshStart k l.startPc).ok []
    else
      let r := s.imageTop k c l.restore
      if imageOkay r c then (r.st.restoreImage k c l.restore r.bytes).ok [] else r.st.failed 0

/-- Step 1: issue stops at the next boundary; a cause taken there is entered first, and a third fault leaves the core stopped (R361, R363, R369). None while the core has not come to a boundary. -/
def State.loanStop (s : State) (k : Nat) (h : k < 128) (l : Loan) : Option State :=
  let mark := fun (s : State) (was : Bool) =>
    let s := if was then s else (s.cancelWait k h).setStat k (s.stat k ||| 16)
    s.modCore k (fun c => { c with loan := some { l with stopped := true, wasStopped := was, started := s.pm.ran } })
  if s.stopped k then some (mark s true)
  else if s.ctxFrozen k || s.frozen (.cu k) then some (mark s false)
  else if s.atBoundary k then
    let t := (s.takeBoundary k h).getD s
    some (mark t (t.stopped k))
  else none

end Sys2Proof.Machine
end

