-- ==== Sys2Proof/Machine/Loans.lean ====
section
/-! DEFINITION. The dockets that lend cores, granules, sync ranges and shares, that read the catalogue and that swap sites (R19 to R23, R367 to R378). -/
namespace Sys2Proof.Machine

/-! ## Core loans (R368 to R374) -/

/-- Whether a save or restore area is allowed (R368): nothing, or 4 KiB aligned inside granules lent to its context. -/
def State.areaOkay (s : State) (ctx : Option Nat) (a : Nat) : Bool :=
  a == 0 || (a % 4096 == 0 && (match ctx with | some c => s.rangeLent c a loanBytes | none => false))

/-- Step 0 of a core loan: the offset of the parameter refused, or the loan. -/
def State.loanCheck (s : State) (v : Via) (b : List Byte) : Nat ⊕ Loan :=
  let k := param b 0
  let e := s.catCore k
  let c := dContext b
  let old := if e.state = 1 then some e.ctx else none
  let new := if c = 0xFF then none else some c
  if 128 ≤ k ∨ e.state = 3 then .inl 0x10
  else if c ≠ 0xFF ∧ !s.contextExists c then .inl 8
  else if 1 < param b 1 then .inl (paramAt 0x0100 1)
  else if !s.areaOkay old (param b 2) then .inl (paramAt 0x0100 2)
  else if !s.areaOkay new (param b 3) then .inl (paramAt 0x0100 3)
  else .inr { force := param b 1 == 1, wasFree := e.state == 0, wasStopped := true, stopped := e.state == 0, newCtx := new
              save := param b 2, restore := param b 3, startPc := BitVec.ofNat 64 (param b 4), via := v, started := s.pm.ran }

/-- A core loan as far as it can go now: step 0, then the stop of issue, then what follows once the core is quiet; between these it goes on at its next command. -/
def State.coreLoan (s : State) (v : Via) (b : List Byte) : Done :=
  let k := param b 0
  match (s.core k).loan with
  | none =>
    (match s.loanCheck v b with
     | .inl off => s.invalid off
     | .inr l =>
       let s : State := { s with cat := { s.cat with cores := tset s.cat.cores k { s.catCore k with state := 2 } } }
       let s := s.modCore k (fun c => { c with loan := some l })
       if l.wasFree then s.loanFinish k l false else ⟨s, .goesOn⟩)
  | some l =>
    if !l.stopped then
      (if h : k < 128 then ⟨(s.loanStop k h l).getD s, .goesOn⟩ else ⟨s, .goesOn⟩)
    else if s.loanQuiet k then s.loanFinish k l false
    else ⟨s, .goesOn⟩

/-- CORE_LOAN. -/
def execCoreLoan (via : Via) (s : State) : Host.Outcome State Fault Refusal := .next (s.runDocket 0x0100 via (fun s b => s.coreLoan via b))

/-- A loan whose step 2 has run out of time: forced it goes on, otherwise the core is released where it stopped (R372). -/
def State.loanTimeout (s : State) (k : Nat) (l : Loan) : Done :=
  if l.force then
    let s := s.abandonWork k
    s.loanFinish k l true
  else
    let s := if l.wasStopped then s else s.setStat k (s.stat k % 16)
    let s := s.modCore k (fun c => { c with loan := none })
    ({ s with cat := { s.cat with cores := tset s.cat.cores k { s.catCore k with state := 1 } } } : State).busy

/-- LOAN_QUIESCE_TIMEOUT: 1,000 us after step 2 began. -/
def execLoanQuiesceTimeout (k : Fin 128) (now : W64) (s : State) : Host.Outcome State Fault Refusal :=
  .next (
    let s := s.advance now
    let k := k.val
    match (s.core k).loan with
    | none => s
    | some l =>
      match s.host.dockets.find? (fun d => d.via == l.via) with
      | none => s
      | some d =>
        if l.stopped && !s.loanQuiet k && decide (l.started + 1000000 ≤ s.pm.ran) then
          s.served (fun s => (s.loanTimeout k l).settle l.via d.bytes)
        else s)

/-! ## Memory (R375, R376) -/

/-- The requests of a core to a granule that are already translated are performed, oldest first: reads that hold slots, then what waits for the frame, then what that asks for (R376 step 4). -/
def State.finishGranule (s : State) (k g : Nat) : Nat → State
  | 0 => s
  | n + 1 =>
    let a := s.ae k
    let here := fun (r : Req) => r.place / 2 ^ 30 == g
    match a.slots.find? here with
    | some r => ((s.modAe k (fun a => { a with slots := a.slots.eraseP here })).returnRead k r).finishGranule k g n
    | none =>
      match (a.frame ++ a.again).find? here with
      | none => s
      | some r =>
        let s := s.modAe k (fun a =>
          if a.frame.any here then { a with frame := a.frame.eraseP here } else { a with again := a.again.eraseP here })
        (s.lookUp k r).finishGranule k g n

/-- Step 3 to 5 of R376 for one core of the old context: translations discarded, earlier accesses to the granule performed, the cache cleaned and invalidated. -/
def State.granuleCore (s : State) (g k : Nat) : State :=
  let a := s.ae k
  let s := (s.modAe k Ae.flushTlb).finishGranule k g (4 * (a.slots ++ a.frame ++ a.again).length)
  let s := ((s.performWrites k).cleanAll k).performWrites k
  (s.invalidateAll k).raise (.mc k) 0x10 0

/-- The same for several cores. -/
def State.granuleCores (s : State) (g : Nat) : List Nat → State
  | [] => s
  | k :: r => (s.granuleCore g k).granuleCores g r

/-- Zero a granule; a fence discards the writes (R35, R376). -/
def State.scrubGranule (s : State) (g : Nat) : State :=
  let a := g * 2 ^ 30
  if (s.region (regionOfPa a)).fenced then s.fenceHit .mpwr 0xFF a
  else if s.stackHeld a then { s with blocked := true }
  else { s with mem := memClear s.mem a (2 ^ 30), memPoison := s.memPoison.filter (fun p => p / 2 ^ 23 != g) }

/-- The granule docket. -/
def State.granuleLoan (s : State) (b : List Byte) : Done :=
  let g := param b 0
  let c := dContext b
  if 1280 ≤ g then s.invalid 0x10
  else if !s.contextExists c then s.invalid 8
  else
    let e := tget s.cat.granules g {}
    let olds := if e.lent then (List.range 128).filter (fun k => s.coreCtx k == some e.ctx) else []
    let s : State := { s with cat := { s.cat with granules := tset s.cat.granules g ⟨c, true, e.gen + 1⟩ } }
    let s := s.granuleCores g olds
    let s := if (param b 1).testBit 0 then s.scrubGranule g else s
    (s.ringLost e.ctx).ok []

/-- GRANULE_LOAN. -/
def execGranuleLoan (via : Via) (s : State) : Host.Outcome State Fault Refusal := .next (s.runDocket 0x0101 via State.granuleLoan)

/-! ## Sync ranges and shares (R377, R378) -/

/-- Whether a physical sync range is lent. -/
def State.physLent (s : State) (p : Nat) : Bool := (List.range 64).any (fun c => (s.rangesLent c).contains p)

/-- Whether an object of a physical range holds wait entries or timers. -/
def State.rangeBusy (s : State) (p : Nat) : Bool :=
  s.sync.waits.any (fun w => w.obj / 64 == p) || s.sync.timers.any (fun e => e.2.any (fun t => t.obj / 64 == p))

/-- The sync range docket. -/
def State.syncLoan (s : State) (b : List Byte) : Done :=
  let r := param b 0
  let p := param b 1
  let c := dContext b
  let withdraw := (param b 2).testBit 0
  if !s.contextExists c then s.invalid 8
  else if 64 ≤ r then s.invalid 0x10
  else if 512 ≤ p ∨ (if withdraw then s.syncRange c r ≠ some p else s.physLent p) then s.invalid (paramAt 0x0102 1)
  else if s.rangeBusy p then s.busy
  else
    let s := s.clearRange p
    ({ s with cat := { s.cat with ranges := tset s.cat.ranges (c, r) (if withdraw then none else some p) } } : State).ok []

/-- SYNC_LOAN. -/
def execSyncLoan (via : Via) (s : State) : Host.Outcome State Fault Refusal := .next (s.runDocket 0x0102 via State.syncLoan)

/-- A share as the catalogue holds it: context 0 has all of a unit until dockets say otherwise (R505). -/
def shareOf (t : Tbl (Nat × Nat) Nat) (c u : Nat) : Nat := tget t (c, u) (if c = 0 then 16 else 0)

/-- The share docket. -/
def State.shareSet (s : State) (b : List Byte) : Done :=
  let kind := param b 0
  let u := param b 1
  let n := param b 2
  let c := dContext b
  let t := if kind = 0 then s.cat.linkShares else s.cat.upeShares
  let sum := ((List.range 64).filter (fun x => x != c)).foldl (fun m x => m + shareOf t x u) n
  if !s.contextExists c then s.invalid 8
  else if 1 < kind then s.invalid 0x10
  else if (if kind = 0 then 12 else 16) ≤ u then s.invalid 0x11
  else if 16 < n ∨ 16 < sum then s.invalid 0x12
  else
    let t := tset t (c, u) n
    ({ s with cat := (if kind = 0 then { s.cat with linkShares := t } else { s.cat with upeShares := t }) } : State).ok []

/-- SHARE_SET. -/
def execShareSet (via : Via) (s : State) : Host.Outcome State Fault Refusal := .next (s.runDocket 0x0103 via State.shareSet)

/-! ## Reading the catalogue (R367) -/

/-- Entries of each kind. -/
def catCount : Nat → Nat
  | 0 => 128
  | 1 => 1280
  | 2 => 4096
  | 3 => 768
  | _ => 1024

/-- A catalogue entry: its context, none for an entry no context holds, and its word. -/
def State.catEntry (s : State) (kind i : Nat) : Option Nat × Nat :=
  match kind with
  | 0 =>
    let e := s.catCore i
    (if e.state = 0 ∨ e.state = 3 then none else some e.ctx, e.ctx % 64 + e.state % 4 * 256 + e.gen.toNat * 65536)
  | 1 =>
    let e := tget s.cat.granules i {}
    (if e.lent then some e.ctx else none, e.ctx % 64 + 256 * b2n e.lent + e.gen.toNat * 65536)
  | 2 => (some (i / 64), match s.syncRange (i / 64) (i % 64) with | some p => p + 2 ^ 15 | none => 0)
  | 3 => (some (i % 64), shareOf s.cat.linkShares (i % 64) (i / 64))
  | _ => (some (i % 64), shareOf s.cat.upeShares (i % 64) (i / 64))

/-- Device memory as Moant writes it. -/
def State.moantWrite (s : State) (a : Nat) (data : List Byte) : State := s.writePhys .mpwr 0xFF a data false

/-- The catalogue docket: a virtual function sees its own entries only (R477). -/
def State.catRead (s : State) (v : Via) (b : List Byte) : Done :=
  let kind := param b 0
  let first := param b 1
  let n := param b 2
  let f := viaFn v
  if 4 < kind then s.invalid 0x10
  else if catCount kind ≤ first then s.invalid (paramAt 0x0104 1)
  else if catCount kind < first + n then s.invalid (paramAt 0x0104 2)
  else if !s.rangeNamed v (param b 3) (4 * n) then s.invalid (paramAt 0x0104 3)
  else
    let word := fun i => let e := s.catEntry kind (first + i); if f = 0 ∨ e.1 = some f then e.2 else 0
    (s.moantWrite (param b 3) ((List.range n).flatMap (fun i => u32 (word i)))).ok (u32 n)

/-- CAT_READ. -/
def execCatRead (via : Via) (s : State) : Host.Outcome State Fault Refusal := .next (s.runDocket 0x0104 via (fun s b => s.catRead via b))

/-! ## Site swap (R19 to R22) -/

/-- What a site held is not there at another: the core is in block reset (log 79). -/
def State.newSite (s : State) (k : Nat) : State :=
  let s := (s.performWrites k).blockResetCore k
  { s with cores := tdel s.cores k, aes := tdel s.aes k, caches := tdel s.caches k, arrays := tdelWhere s.arrays (fun x => x.1 == k) }

/-- The reply FAILED of a chapter that gives no cause: DETAIL is left open (log 80). -/
def State.failedOpen (s : State) : Done :=
  ({ s with freeCtr := s.freeCtr + 1 } : State).failed ((Config.freeValue s.freeCtr).toNat % 2 ^ 32)

/-- The site docket; `selfTestOk` is how the spare's scan self-test ends; what DETAIL a failed one gives is open (log 80). -/
def State.siteSwap (s : State) (selfTestOk : Bool) (b : List Byte) : Done :=
  let k := param b 0
  let e := s.catCore k
  let d := regionOf k
  let r := s.region d
  if 128 ≤ k ∨ e.state = 3 then s.invalid 0x10
  else if !s.stopped k || !(e.state == 0 || (e.state == 1 && e.ctx == 0)) then s.busy
  else if r.spare = 0x1F then
    let s := (s.newSite k).setRegion d { r with sites := listSet r.sites (k % 16) 0xFF }
    ({ s with cat := { s.cat with cores := tset s.cat.cores k { e with ctx := 0, state := 3 } } } : State).ok (u8 0xFF)
  else if selfTestOk then
    ((s.newSite k).setRegion d { r with sites := listSet r.sites (k % 16) r.spare, spare := 0x1F }).ok (u8 r.spare)
  else (s.setRegion d { r with spare := 0x1F }).failedOpen

/-- SITE_SWAP. -/
def execSiteSwap (via : Via) (selfTestOk : Bool) (s : State) : Host.Outcome State Fault Refusal :=
  .next (s.runDocket 0x0105 via (State.siteSwap · selfTestOk))

end Sys2Proof.Machine
end

