-- ==== Sys2Proof/Machine/Links.lean ====
section
/-! DEFINITION. Link ports at work: filling and sending flits, receiving them, acknowledgement, credit and replay, lanes and training (R425 to R439, R457, R459). -/
namespace Sys2Proof.Machine

/-! ## Sending (R378, R429 to R434) -/

/-- Whether a port holds the credit for a whole message. -/
def Port.mayStart (x : Port) (m : TxMsg) : Bool :=
  decide (4 ≤ m.vc) || decide (creditUnits m.bytes ≤ (x.limit.getD m.vc 0 + x.granted.getD m.vc 0 + 65536 - x.used.getD m.vc 0) % 65536)

/-- A context's share of a port, in sixteenths (R378, R505). -/
def State.linkShare (s : State) (c p : Nat) : Nat := tget s.cat.linkShares (c, p) (if c = 0 then 16 else 0)

/-- Bytes that a turn of 32 flits carries. -/
def turnBytes : Nat := 32 * 252

/-- The shares of the port's present round, latched as it began (R378). -/
def State.roundShares (s : State) (p : Nat) (x : Port) : List Nat :=
  if x.shares.isEmpty then (List.range 64).map (fun c => s.linkShare c p) else x.shares

/-- Which of two contexts VC0 serves first: one that has not yet had its share of the round, else the one served least for its share, one with share 0 last (R378, R433; log 60). -/
def State.owedBefore (s : State) (p : Nat) (x : Port) (a b : Nat) : Bool :=
  let sa := (s.roundShares p x).getD a 0
  let sb := (s.roundShares p x).getD b 0
  let ua := tget x.served a 0
  let ub := tget x.served b 0
  let oa := decide (ua < sa * turnBytes)
  let ob := decide (ub < sb * turnBytes)
  if oa != ob then oa else if sb = 0 then sa != 0 || decide (ua < ub) else sa != 0 && decide (ua * sb < ub * sa)

/-- The context whose VC0 message is sent next, among those whose oldest one has its credit. -/
def State.vc0Context (s : State) (p : Nat) (x : Port) : Option Nat :=
  let heads := ((x.tx.filter (fun m => m.vc == 0)).map (·.ctx)).eraseDups.filter (fun c =>
    match x.tx.find? (fun m => m.vc == 0 && m.ctx == c) with
    | some m => x.mayStart m
    | none => false)
  heads.foldl (fun best c => match best with
    | none => some c
    | some b => if s.owedBefore p x c b then some c else some b) none

/-- Take the oldest queued message that satisfies `q`, if the port holds its credit. -/
def Port.pick (x : Port) (q : TxMsg → Bool) : Option (TxMsg × List TxMsg) :=
  match takeFirst q (fun _ => false) x.tx with
  | some (m, r) => if x.mayStart m then some (m, r) else none
  | none => none

/-- The first of several choices. -/
def firstSome {α : Type} : List (Option α) → Option α
  | [] => none
  | some a :: _ => some a
  | none :: r => firstSome r

/-- The message with credit that is sent next, PM messages apart (R433). -/
def State.nextTx (s : State) (p : Nat) (x : Port) : Option (TxMsg × List TxMsg) :=
  firstSome [x.pick (fun m => m.vc == 1), x.pick (fun m => m.vc == 3 && m.registered), x.pick (fun m => m.vc == 2),
    (match s.vc0Context p x with
     | some c => x.pick (fun m => m.vc == 0 && m.ctx == c)
     | none => none),
    x.pick (fun m => m.vc == 3 && !m.registered)]

/-- A FILL word. -/
def fillWord : List Byte := u32 (15 + 16 * Config.fillBits.toNat)
/-- Bytes of FILL. -/
def fillBytes (n : Nat) : List Byte := ((List.range (n / 4)).map (fun _ => fillWord)).flatten

/-- Whether PTB_LINKBP withholds credit return of a port now (R529): the first DUTY sixteenths of each microsecond (log 61). -/
def State.creditHeld (s : State) (p : Nat) : Bool :=
  let (d, i) := portRegion p
  let v := s.reg (.ptb d) 0x18
  v.testBit 31 && v % 2 == i && decide (s.pm.master.toNat % 1000 * 16 < bits v 4 4 * 1000)

/-- The last flit a port accepted. -/
def Port.acked (x : Port) : Nat := (x.rxSeq + 4095) % 4096

/-- The credit counts a port tells now (R431, R529). -/
def State.creditTold (s : State) (p : Nat) : List Nat := if s.creditHeld p then (s.lport p).told else (s.lport p).freed

/-- Whether an LCTL is due: a NAK, or a field that has changed since the last one (R431). -/
def State.lctlNow (s : State) (p : Nat) : Bool :=
  let x := s.lport p
  x.nakDue || (x.lctlDue && (s.creditTold p != x.told || x.acked != x.toldAck))

/-- An LCTL has been sent; one with NAK counts towards R435. -/
def State.lctlSent (s : State) (p : Nat) : State :=
  let counts := s.creditTold p
  s.modLport p (fun x => { x with lctlDue := counts != x.freed, naks := x.naks + b2n x.nakDue, nakDue := false, told := counts, toldAck := x.acked })

/-- An LCTL with the present counts (R431). -/
def lctlBytes (x : Port) (counts : List Nat) : List Byte :=
  ({ typ := 10, addr := x.acked + (if x.nakDue then 32768 else 0)
     txn := counts.getD 0 0 % 65536 + 65536 * (counts.getD 1 0 % 65536)
     corr := counts.getD 2 0 % 65536 + 65536 * (counts.getD 3 0 % 65536) } : Msg).bytes

/-- A PM message as it departs at postmark `t`: a request carries t1 in ADDR, a response t3 in TXN (R453; log 62). -/
def pmDepart (b : List Byte) (t : W64) : List Byte :=
  if fieldAt b 0 1 % 16 = 8 then b.take 0x10 ++ u64 t.toNat ++ b.drop 0x18 else b.take 0x18 ++ u32 t.toNat ++ b.drop 0x1C

/-- A body being filled: the state, what is sent, what a replay would send, where FILL replaces a PM message or an LCTL in it, whose messages it carries. -/
structure Filling where
  st : State
  body : List Byte
  kept : List Byte
  hole : Option Nat := none
  ctxs : List Nat := []

/-- Put a context's data into a body; what does not fit continues in the next flit. -/
def Filling.data (f : Filling) (p c : Nat) (b : List Byte) : Filling :=
  let room := 252 - f.body.length
  { f with
    st := f.st.modLport p (fun x => { x with part := b.drop room, partCtx := c }), body := f.body ++ b.take room, kept := f.kept ++ b.take room
    ctxs := if b.isEmpty then f.ctxs else c :: f.ctxs }

/-- Put a PM message or an LCTL into a body; a replay has FILL in its place (R434). -/
def Filling.control (f : Filling) (b : List Byte) : Filling :=
  { f with body := f.body ++ b, kept := f.kept ++ fillBytes b.length, hole := f.hole.or (some f.body.length) }

/-- Start one message in a body, by the order of R433; none when nothing can start. A PM message or an LCTL is put into a body whole, and while one waits for room nothing else starts (log 63). `left` flits may still be kept; a message starts only if they hold all of it. After 40 flits without room for one an LCTL goes whether or not a field has changed, so that a replay meets such a flit at least once in 64 (R431; log 63). -/
def Filling.start (f : Filling) (p left : Nat) : Option Filling :=
  let s := f.st
  let x := s.lport p
  let whole := decide (f.body.length + 32 ≤ 252)
  match x.pick (fun m => m.vc == 4) with
  | some (m, r) =>
    if !whole then none
    else
      let s := s.modLport p (fun x => { x with tx := r })
      let s : State := if fieldAt m.bytes 0 1 % 16 = 8 then { s with pm := { s.pm with exchange := some s.pm.master } } else s
      some (({ f with st := s }).control (pmDepart m.bytes s.pm.master))
  | none =>
    if s.lctlNow p || (f.hole.isNone && decide (40 ≤ x.sinceHole)) then
      (if whole then some (({ f with st := s.lctlSent p }).control (lctlBytes x (s.creditTold p))) else none)
    else match s.nextTx p x with
    | none => none
    | some (m, r) =>
      if left < (f.body.length + m.bytes.length + 251) / 252 then none
      else
        let s := s.modLport p (fun x => { x with
          tx := r
          used := listSet x.used m.vc ((x.used.getD m.vc 0 + creditUnits m.bytes) % 65536)
          served := if m.vc = 0 then tset x.served m.ctx (tget x.served m.ctx 0 + m.bytes.length) else x.served })
        some (({ f with st := s.stampSent m }).data p m.ctx m.bytes)

/-- Start messages until the body is full or nothing can start. -/
def Filling.fill (p left : Nat) : Nat → Filling → Filling
  | 0, f => f
  | n + 1, f =>
    if 252 ≤ f.body.length then f
    else match f.start p left with
      | none => f
      | some g => g.fill p left n

/-- A flit with its CRC leaves a port (R429): a sign of life for the contexts whose messages it carries (R333). -/
def State.emitFlit (s : State) (p : Nat) (ctxs : List Nat) (body : List Byte) : State :=
  let s := s.bump (.port p) 0x100 1
  let s := ctxs.foldl (fun s c => s.moved (portRegion p).1 c) s
  { s with out := s.out ++ [.flit p (BitVec.ofNat 2048 (leNat (body ++ u32 (crc32c body))))] }

/-- The next flit of a replay (R434). A due LCTL takes the place of 32 bytes of FILL that stand between messages (R431; log 63). -/
def State.sendReplay (s : State) (p seq : Nat) (f : SentFlit) : State :=
  let next := (seq + 1) % 4096
  let x := s.lport p
  let more := x.replay.any (fun g => g.seq == next)
  let (s, body) := match (if s.lctlNow p then f.hole else none) with
    | some h => (s.lctlSent p, patch f.body h (lctlBytes x (s.creditTold p)))
    | none => (s, f.body)
  (s.emitFlit p f.ctxs body).modLport p (fun x => { x with replayFrom := if more then some next else none })

/-- A new flit; `left` more may be kept with this one. -/
def State.sendNew (s : State) (p left : Nat) : State :=
  let x := s.lport p
  let x : Port := { x with shares := s.roundShares p x }
  let f : Filling := Filling.data ⟨s.setLport p x, [], [], none, []⟩ p x.partCtx x.part
  let f := f.fill p left 64
  let n := 252 - f.body.length
  let pad := fillBytes n
  let hole := f.hole.or (if 32 ≤ n then some f.body.length else none)
  let s := f.st.emitFlit p f.ctxs (f.body ++ pad)
  s.modLport p (fun x => { x with
    txSeq := (x.txSeq + 1) % 4096
    sinceHole := if hole.isSome then 0 else x.sinceHole + 1
    replay := x.replay ++ [⟨x.txSeq, f.kept ++ pad, hole, f.ctxs⟩]
    roundAt := (x.roundAt + 1) % 512
    shares := if x.roundAt = 511 then [] else x.shares
    served := if x.roundAt = 511 then [] else x.served })

/-- Cycles of the SerDes shell clock, 1.328,125 GHz, by tick `t` (R425). -/
def shellCycles (t : Nat) : Nat := t * 85 / 64

/-- Count the shell cycles in which a message has waited for credit, and note whether one waits now (R432, R456). -/
def State.creditStall (s : State) (p : Nat) : State :=
  let x := s.lport p
  let s := match x.stalled with
    | some t => s.bump (.port p) 0x120 (shellCycles s.pm.ran - shellCycles t)
    | none => s
  s.setLport p { x with stalled := if x.tx.any (fun m => !x.mayStart m) then some s.pm.ran else none }

/-- Eight NAKs in a row, sent or received, with no flit accepted retrain the port (R435). -/
def State.nakLimit (s : State) (p : Nat) : State :=
  if 8 ≤ (s.lport p).naks ∨ 8 ≤ (s.lport p).naksGot then s.retrain p else s

/-- Whether a port carries traffic. -/
def State.portSends (s : State) (p : Nat) : Bool := s.portRuns p && (s.lport p).state == 2

/-- FLIT_SEND: a replayed flit, or a new one while at most 511 are unacknowledged; with 512 of them one that carries an LCTL and FILL alone (log 63). A port that is closing goes DOWN when its queue is empty (R434, R457). -/
def execFlitSend (p : Fin 12) (now : W64) (s : State) : Host.Outcome State Fault Refusal :=
  .next (
    let s := s.advance now
    let p := p.val
    let x := s.lport p
    if !s.portSends p then s
    else
      let again := match x.replayFrom with
        | some seq => (x.replay.find? (fun f => f.seq == seq)).map (fun f => (seq, f))
        | none => none
      match again with
      | some (seq, f) => ((s.sendReplay p seq f).creditStall p).nakLimit p
      | none =>
        if 4095 ≤ x.replay.length ∨ (512 ≤ x.replay.length ∧ !(x.part.isEmpty && s.lctlNow p)) then s.creditStall p
        else
          let s := ((s.sendNew p (512 - x.replay.length)).creditStall p).nakLimit p
          let x := s.lport p
          if x.closing && x.tx.isEmpty && x.part.isEmpty then s.portDown p else s)

/-! ## Receiving (R429, R430, R434, R435) -/

/-- Cut received bytes into whole messages: the messages, what is incomplete, and whether a reserved TYPE discarded the rest. -/
def splitMsgs : Nat → List Byte → List (List Byte) × List Byte × Bool
  | 0, b => ([], b, false)
  | n + 1, b =>
    let t := fieldAt b 0 1 % 16
    if b.length < 4 then ([], b, false)
    else if t = 15 then splitMsgs n (b.drop 4)
    else if 11 ≤ t then ([], [], true)
    else
      let len := 32 + pad4 (dataLen b)
      if b.length < 32 ∨ b.length < len then ([], b, false)
      else
        let (l, r, bad) := splitMsgs n (b.drop len)
        (b.take len :: l, r, bad)

/-- A NAK is due (R434). -/
def State.nak (s : State) (p : Nat) : State := s.modLport p (fun x => { x with nakDue := true, discarding := true })

/-- A flit accepted in sequence: its messages join those received, a sign of life for their contexts (R333); PM messages and LCTLs are of none. -/
def State.acceptFlit (s : State) (p : Nat) (body : List Byte) : State :=
  let s := s.bump (.port p) 0x108 1
  let b := (s.lport p).rxPart ++ body
  let (l, r, bad) := splitMsgs b.length b
  let region := (portRegion p).1
  let ctxs := (r :: l).filterMap (fun m => if 14 ≤ m.length ∧ vcOf (fieldAt m 0 1 % 16) < 4 then s.ctxOfJob (fieldAt m 12 2) else none)
  let s := ctxs.foldl (fun s c => s.moved region c) s
  let s := s.modLport p (fun x => { x with
    rxSeq := (x.rxSeq + 1) % 4096, naks := 0, discarding := false, lctlDue := true, rxPart := r, rx := x.rx ++ l })
  if bad then s.raise (.port p) 0x10 3 else s

/-- The decoders' reports since the last flit: the counters, and what R436 judges a millisecond by (R426, R456). -/
def State.decoded (s : State) (p : Nat) : List Codeword → State
  | [] => s
  | w :: r =>
    let l := w.lane.val
    if !(s.lport p).lanes.testBit l || (w.corrected == 0 && !w.lost) then s.decoded p r
    else
      let f := FrameId.lane p l
      let s := (s.bump f 0x100 w.corrected.val).bump f 0x108 (b2n w.lost)
      let now := s.pm.ran
      let old := (tget s.links.fec (p, l) []).filter (fun t => decide (now < t.at_ + 1000000))
      let s : State := { s with links := { s.links with fec := tset s.links.fec (p, l) (old ++ [⟨now, w.corrected.val, w.lost⟩]) } }
      s.decoded p r

/-- FLIT_RECEIVE: a flit at its place in the partner's count (R427, R429; log 53). A damaged flit, or one after a gap, is NAKed and what follows is discarded up to the replayed flit, which is NAKed again when it comes damaged; a replayed flit that was accepted before is passed over. -/
def execFlitReceive (p : Fin 12) (f : ArrivedFlit) (s : State) : Host.Outcome State Fault Refusal :=
  .next (
    let s := s.advance f.now
    let p := p.val
    if !s.portSends p then s
    else
      let s := s.decoded p f.codewords
      let b := leBytes 256 f.bits.toNat
      let body := b.take 252
      let x := s.lport p
      let behind := (x.rxSeq + 4096 - f.seq.toNat) % 4096
      if crc32c body ≠ fieldAt b 252 4 then
        let s := s.bump (.port p) 0x110 1
        if x.discarding ∧ behind ≠ 0 then s else s.nak p
      else if behind = 0 then s.acceptFlit p body
      else if x.discarding ∨ behind ≤ 2048 then s
      else s.nak p)

/-- The flits after the acknowledged one; a number that is not among them frees none. -/
def afterAck (seq : Nat) (l : List SentFlit) : List SentFlit :=
  if l.any (fun f => f.seq == seq) then (l.dropWhile (fun f => f.seq != seq)).drop 1 else l

/-- A replay from a flit that is kept begins (R434). -/
def State.replayAt (s : State) (p : Nat) (seq : Option Nat) : State :=
  match seq with
  | none => s
  | some q => if (s.lport p).replay.any (fun f => f.seq == q) then (s.modLport p (fun x => { x with replayFrom := some q })).bump (.port p) 0x118 1 else s

/-- Flits that the partner has accepted are freed; a replay that stood at one of them goes on at the oldest kept (R434). -/
def Port.free (x : Port) (ack : Nat) : Port :=
  let l := afterAck ack x.replay
  let from_ := match x.replayFrom with
    | none => none
    | some q => if l.any (fun f => f.seq == q) then some q else (l.head?).map (·.seq)
  { x with replay := l, replayFrom := from_ }

/-- LCTL (R431): acknowledged flits are freed, credit grows to the counts given, a NAK starts the replay, and the eighth in a row that frees no flit retrains the port (R435). -/
def execLctl (p : Fin 12) (s : State) : Host.Outcome State Fault Refusal :=
  .next (
    let p := p.val
    match (if s.portRuns p then s.nextRx p 10 else none) with
    | none => s
    | some (b, rest) =>
      let m := parseMsg b
      let ack := m.addr % 4096
      let x := s.lport p
      let s := ((s.consume p b rest).creditStall p).modLport p (fun x => { x.free ack with
        granted := [m.txn % 65536, m.txn / 65536 % 65536, m.corr % 65536, m.corr / 65536 % 65536] })
      let s := s.creditStall p
      let fresh := (s.lport p).replay.length < x.replay.length
      let s := s.modLport p (fun y => { y with naksGot := (if fresh then 0 else y.naksGot) + b2n (m.addr.testBit 15) })
      if m.addr.testBit 15 then (s.replayAt p (some ((ack + 1) % 4096))).nakLimit p else s)

/-! ## Lanes and training (R435 to R439) -/

/-- The number of a lane's cause: the items of R436. -/
def laneCauseNo : LaneCause → Nat
  | .training => 1
  | .clock => 2
  | .uncorrectable => 3
  | .symLimit => 4

/-- STATE of LNK_LTRAIN. -/
def State.laneState (s : State) (p l v : Nat) : State :=
  let old := s.reg (.lane p l) 0
  s.setReg (.lane p l) 0 (old - old % 8 + v)

/-- A dropped lane's shell, flag and event. -/
def State.laneDropped (s : State) (p l cause : Nat) : State :=
  (s.laneState p l 7).flagEvent (.port p) 0x10 0 0x107 0xFF (u8 l ++ u8 cause)

/-- The oldest unacknowledged flit. -/
def Port.oldest (x : Port) : Option Nat := (x.replay.head?).map (·.seq)

/-- Whether a lane's decoder reports bear out a cause: more than 16 codewords lost, or more symbols corrected than SYM_LIMIT, within a millisecond (R436, R457). The analogue causes are as the command says. -/
def State.laneFails (s : State) (p l : Nat) (cause : LaneCause) : Bool :=
  let ticks := tget s.links.fec (p, l) []
  match cause with
  | .training => true
  | .clock => true
  | .uncorrectable => decide (16 < (ticks.filter (·.lost)).length)
  | .symLimit => decide (s.reg (.port p) 0xC % 65536 < ticks.foldl (fun n t => n + t.corrected) 0)

/-- LANE_DEGRADED: a lane in use, or one still training, is dropped in both directions (R436, R437). -/
def execLaneDegraded (p : Fin 12) (l : Fin 8) (cause : LaneCause) (s : State) : Host.Outcome State Fault Refusal :=
  .next (
    let p := p.val
    let l := l.val
    let x := s.lport p
    let without := fun (m : Nat) => m &&& (255 ^^^ 2 ^ l)
    if !s.portRuns p || !s.laneFails p l cause then s
    else if x.state = 2 ∧ x.lanes.testBit l then
      let s : State := { s with links := { s.links with fec := tdel s.links.fec (p, l) } }
      let s := (s.setLport p { x with lanes := without x.lanes }).laneDropped p l (laneCauseNo cause)
      if without x.lanes = 0 then s.linkDown p else s.replayAt p x.oldest
    else if x.state = 1 ∧ x.allow.testBit l then (s.setLport p { x with allow := without x.allow }).laneDropped p l (laneCauseNo cause)
    else s)

/-- Whether lane `l` comes up at the end of a training. -/
def laneUp (x : Port) (lanes : BitVec 8) (tr : List LaneTraining) (l : Nat) : Bool :=
  x.allow.testBit l && lanes.getLsbD l && (match tr[l]? with | some t => t.up | none => true)

/-- A lane's shell after training: TXEQ unless HOLD is set (R439, R459). -/
def State.laneTrained (s : State) (p : Nat) (tr : List LaneTraining) (l : Nat) : State :=
  let s := s.laneState p l 6
  match tr[l]? with
  | none => s
  | some t =>
    let f := FrameId.lane p l
    let s := s.setReg f 0 (6 + 256 * b2n t.precode)
    let s := if (s.reg f 4).testBit 31 then s else s.setReg f 4 t.txeq.toNat
    s.setReg f 8 (t.ctle.toNat + 32 * t.dfe1.toNat)

/-- The lanes of a training, each up or dropped. -/
def State.lanesTrained (s : State) (p : Nat) (x : Port) (lanes : BitVec 8) (tr : List LaneTraining) : List Nat → State
  | [] => s
  | l :: r =>
    let s := if !x.allow.testBit l then s else if laneUp x lanes tr l then s.laneTrained p tr l else s.laneDropped p l 1
    s.lanesTrained p x lanes tr r

/-- Credit units of a port's receive buffers for VC0 to VC3 (R432). -/
def bufferUnits : List Nat := [2048, 2048, 128, 128]

/-- The free units of a port's buffers. -/
def Port.freeUnits (x : Port) : List Nat :=
  (List.range 4).map (fun v => bufferUnits.getD v 0 - ((x.rx.filter (fun b => vcOf (fieldAt b 0 1 % 16) == v)).map creditUnits).sum)

/-- PORT_UP: every lane of the latched mask has come up or been dropped; the ends exchange credit and sequence. A retrain resumes with its replay, or with no lane goes DOWN (R435, R439). -/
def execPortUp (p : Fin 12) (lanes : BitVec 8) (t : PortTraining) (s : State) : Host.Outcome State Fault Refusal :=
  .next (
    let tr := t.shells
    let e := t.partner
    let p := p.val
    let x := s.lport p
    if !s.portRuns p || x.state != 1 then s
    else
      let up := packBits ((List.range 8).map (laneUp x lanes tr))
      let s := s.lanesTrained p x lanes tr (List.range 8)
      if up = 0 then (if x.retraining then s.linkDown p else s.modLport p (fun x => { x with allow := 0 }))
      else
        let units := [e.vc0.toNat, e.vc1.toNat, e.vc2.toNat, e.vc3.toNat]
        let s : State := { s with out := s.out ++ [.linkUp p x.acked (if x.retraining then x.freed else x.freeUnits)] }
        let s := s.modLport p (fun x => { (if x.retraining then { x.free e.ack.toNat with granted := units } else { x with limit := units }) with
          state := 2, lanes := up, retraining := false, lctlDue := true, asked := 0 })
        if x.retraining then s.replayAt p (s.lport p).oldest else s)

/-- TRAINING_TIMEOUT: not UP 50 ms after training began (R439). -/
def execTrainingTimeout (p : Fin 12) (now : W64) (s : State) : Host.Outcome State Fault Refusal :=
  .next (
    let s := s.advance now
    let p := p.val
    let x := s.lport p
    if x.state = 1 ∧ x.trainStart + 50000000 ≤ s.pm.ran then (if x.retraining then s.linkDown p else s.portDown p) else s)

/-- TRAINING_RETRY: an enabled DOWN port attempts training every 100 ms (R438). -/
def execTrainingRetry (p : Fin 12) (now : W64) (s : State) : Host.Outcome State Fault Refusal :=
  .next (
    let s := s.advance now
    let p := p.val
    let x := s.lport p
    if s.portRuns p && x.state == 0 && (s.reg (.port p) 0).testBit 0 && decide (x.lastTry + 100000000 ≤ s.pm.ran) then s.startTraining p false
    else s)

/-- LNK_ENABLE_WRITE (R457). -/
def execLnkEnableWrite (ag : Agent) (p : Fin 12) (v : W32) (s : State) : Host.Outcome State Fault Refusal :=
  .next (s.write ag (s.bar0 (.port p.val)) v.toNat)

/-- LTRAIN_RETRAIN (R435, R459): the command writes RETRAIN = 1. -/
def execLtrainRetrain (ag : Agent) (p : Fin 12) (l : Fin 8) (now : W64) (s : State) : Host.Outcome State Fault Refusal :=
  .next (
    let s := s.advance now
    s.write ag (s.bar0 (.lane p.val l.val)) 0x10000)

/-- MARGIN_START (R459): the command writes START = 1. -/
def execMarginStart (ag : Agent) (p : Fin 12) (l : Fin 8) (s : State) : Host.Outcome State Fault Refusal :=
  .next (s.write ag (s.bar0 (.lane p.val l.val) + 0x20) 1)

/-- MARGIN_DONE (R459): the measured eye of a lane. -/
def execMarginDone (p : Fin 12) (l : Fin 8) (eyeH eyeW : BitVec 8) (s : State) : Host.Outcome State Fault Refusal :=
  .next (
    let p := p.val
    let l := l.val
    if s.portRuns p && tget s.links.margins (p, l) false then
      let s : State := { s with links := { s.links with margins := tdel s.links.margins (p, l) } }
      s.setReg (.lane p l) 0x20 (2 + 256 * eyeH.toNat + 65536 * eyeW.toNat)
    else s)

end Sys2Proof.Machine
end

