-- ==== Sys2Proof/Machine/Postmark.lean ====
section
/-! DEFINITION. Postmark alignment: requests, responses, slews, steps and what a step does to pending comparisons, loss of lock (R340, R341, R344, R453). -/
namespace Sys2Proof.Machine

/-! ## Steps of the master (R340, R344) -/

/-- A region's timers that a step has passed fire at once, counted as late. -/
def State.fireLate (s : State) (d : Nat) : List SyncTimer → State
  | [] => s
  | t :: r => ((s.timerAct d t).bump (.cu t.core) 0x490 1).fireLate d r

/-- Whether a step from `old` to `new` has passed `t`. -/
def passed (old new : Nat) (t : Nat) : Bool := decide (old ≤ t) && decide (t < new)

/-- A core's wait for a time that the step has passed ends: the instruction comes to issue again, late. -/
def Core.stepped (c : Core) (old new : Nat) : Core :=
  match c.waiting with
  | some w =>
    (match w.kind with
     | .swaitT t => if passed old new t.toNat then { c with waiting := none } else c
     | .tstart => if c.armed.any (fun e => passed old new e.2.toNat) then { c with waiting := none } else c
     | _ => c)
  | none => c

/-- A ready TIMED stage whose LAUNCH_T the step has passed is late. -/
def Stage.steppedTo (g : Stage) (old new : Nat) : Stage :=
  if g.phase = 1 ∧ stageTimed g.words ∧ passed old new (stageTime g.words) then { g with ready := BitVec.ofNat 64 new } else g

/-- One region's copy takes a step. -/
def State.stepRegion (s : State) (t d : Nat) : State :=
  let old := (s.copyOf d).toNat
  let new := ((t : Int) + s.copyOffset d t).toNat
  let s : State := { s with pm := { s.pm with copies := tset s.pm.copies d (BitVec.ofNat 64 new) } }
  let s : State := { s with
    cores := s.cores.map (fun e => if regionOf e.1 = d then (e.1, e.2.stepped old new) else e)
    links := { s.links with stages := s.links.stages.map (fun e => if e.1.1 = d then (e.1, e.2.map (fun g => g.steppedTo old new)) else e) } }
  let ts := tget s.sync.timers d []
  let gone := fun (t : SyncTimer) => passed old new t.due.toNat
  let s : State := { s with sync := { s.sync with timers := tset s.sync.timers d (ts.filter (fun t => !gone t)) } }
  (s.fireLate d (ts.filter gone)).raise (.sync d) 0 6

/-- Every region's copy takes a step. -/
def State.stepRegions (s : State) (t : Nat) : List Nat → State
  | [] => s
  | d :: r => (s.stepRegion t d).stepRegions t r

/-- The master is set to `t` in one step, and the module is locked. -/
def State.stepMaster (s : State) (t : W64) : State :=
  let s : State := { s with pm := { s.pm with master := t, locked := true, stepped := true, slew := 0, slewAt := 0, lastAlign := t, lastReq := t } }
  s.stepRegions t.toNat (List.range 8)

/-! ## Loss of lock (R341) -/

/-- The flags of the sync frames. -/
def State.raiseSync (s : State) (bit : Nat) : List Nat → State
  | [] => s
  | d :: r => (s.raise (.sync d) 0 bit).raiseSync bit r

/-- LOCKED becomes 0: the event carries the last offset. Its flag stands in eight frames, none of them the source's, so ACCESSION is 0 (log 65). -/
def State.pmUnlock (s : State) : State :=
  let s : State := { s with pm := { s.pm with locked := false } }
  (s.raiseSync 5 (List.range 8)).event .revt 0x105 0xFF 0 (u32 (wrapNat s.pm.offset 32))

/-- PM_UNLOCKED: no alignment message for 100 ms. -/
def execPmUnlocked (now : W64) (s : State) : Host.Outcome State Fault Refusal :=
  .next (
    let s := s.advance now
    if s.pwr.ready && s.pm.locked && decide (s.pm.lastAlign.toNat + 100000000 ≤ s.pm.master.toNat) then s.pmUnlock else s)

/-! ## The exchange (R453) -/

/-- PM_REQ_SEND: every 10 us, on the time-source port; a send after its slot is counted. -/
def execPmReqSend (now : W64) (s : State) : Host.Outcome State Fault Refusal :=
  .next (
    let s := s.advance now
    match s.pm.source with
    | none => s
    | some p =>
      let t := s.pm.master.toNat
      let slot := s.pm.lastReq.toNat + 10000
      if !s.portSends p || decide (t < slot) then s
      else
        let m : Msg := { typ := 8, srcId := s.links.selfId.getD 0, srcRank := s.links.rank }
        let s := s.enqueue p { vc := 4, ctx := 0xFF, mask := 2 ^ p, registered := false, bytes := m.bytes }
        let s := if slot < t then s.bump (.port p) 0x128 1 else s
        { s with pm := { s.pm with lastReq := s.pm.master } })

/-- CORR of a PM message, signed. -/
def Msg.corrTime (m : Msg) : Int := sext m.corr 32

/-- PM_REQ: answered on its port with t2, less the CORR it brought; t3 is filled in as the response leaves. -/
def execPmReq (p : Fin 12) (now : W64) (s : State) : Host.Outcome State Fault Refusal :=
  .next (
    let s := s.advance now
    let p := p.val
    match (if s.portRuns p then s.nextRx p 8 else none) with
    | none => s
    | some (b, rest) =>
      let m := parseMsg b
      let s := s.consume p b rest
      let t2 := ((s.pm.master.toNat : Int) - m.corrTime).toNat
      let r : Msg := { typ := 9, dstId := m.srcId, srcId := s.links.selfId.getD 0, dstRank := m.srcRank, srcRank := s.links.rank, addr := t2 }
      s.enqueue p { vc := 4, ctx := 0xFF, mask := 2 ^ p, registered := false, bytes := r.bytes })

/-- Half of twice the offset; the rounding of an odd sum is not fixed (log 66). -/
def halfOffset (v : Int) (up : Bool) : Int := if v % 2 = 0 then v / 2 else if up then v / 2 + 1 else v / 2

/-- What a computed offset does: the first steps the master, later ones slew it; beyond 1 us the module is unlocked. -/
def State.pmAlign (s : State) (offset : Int) : State :=
  let s : State := { s with pm := { s.pm with offset := offset, lastAlign := s.pm.master, exchange := none } }
  if !s.pm.stepped then s.stepMaster (BitVec.ofNat 64 ((s.pm.master.toNat : Int) - offset).toNat)
  else
    let s : State := { s with pm := { s.pm with slew := offset } }
    if 1000 < offset.natAbs then (if s.pm.locked then s.pmUnlock else s)
    else { s with pm := { s.pm with locked := true } }

/-- PM_RSP: the offset from t1 to t4, on the time-source port with an exchange under way. -/
def execPmRsp (p : Fin 12) (now : W64) (s : State) : Host.Outcome State Fault Refusal :=
  .next (
    let s := s.advance now
    let p := p.val
    match (if s.portRuns p then s.nextRx p 9 else none) with
    | none => s
    | some (b, rest) =>
      let m := parseMsg b
      let s := s.consume p b rest
      match s.pm.exchange with
      | none => s
      | some t1 =>
        if s.pm.source ≠ some p then s
        else
          let t2 : Int := m.addr
          let t3 : Int := t2 + ((((m.txn : Int) - t2) % (2 ^ 32 : Int)))
          let t4 : Int := (s.pm.master.toNat : Int) - m.corrTime
          let up := (Config.freeValue s.freeCtr).getLsbD 0
          let s : State := { s with freeCtr := s.freeCtr + 1 }
          s.pmAlign (halfOffset ((t1.toNat : Int) - t2 + (t4 - t3)) up))

end Sys2Proof.Machine
end

