-- ==== Sys2Proof/Machine/LinkDockets.lean ====
section
/-! DEFINITION. The dockets of the links: identities, jobs, routes, the time source, retraining, the scan of a buddy's slots (R340, R416, R417, R437, R440, R441, R453). -/
namespace Sys2Proof.Machine

/-- Largest module identifier, rank and table index (R440, R441). -/
def idMax : Nat := 16383

/-! ## Identities (R440) -/

/-- SELF_ID. -/
def execSelfId (via : Via) (s : State) : Host.Outcome State Fault Refusal :=
  .next (s.runDocket 0x0200 via (fun s b =>
    if idMax < param b 0 then s.invalid 0x10
    else ({ s with links := { s.links with selfId := some (param b 0) } } : State).ok []))

/-- SELF_RANK. -/
def execSelfRank (via : Via) (s : State) : Host.Outcome State Fault Refusal :=
  .next (s.runDocket 0x0201 via (fun s b =>
    if idMax < param b 0 then s.invalid 0x10
    else ({ s with links := { s.links with rank := param b 0 } } : State).ok []))

/-- LINK_JOB: two contexts never have the same job number but 0xFFFF, which is none. -/
def execLinkJob (via : Via) (s : State) : Host.Outcome State Fault Refusal :=
  .next (s.runDocket 0x0202 via (fun s b =>
    let c := dContext b
    let j := param b 0
    if !s.contextExists c then s.invalid 8
    else if j ≠ 0xFFFF ∧ (List.range 64).any (fun x => x != c && s.jobOf x == j) then s.invalid 0x10
    else ({ s with links := { s.links with jobs := tset s.links.jobs c j } } : State).ok []))

/-! ## Routes (R441) -/

/-- Write the same entry in every port's copy of a table. -/
def allCopies (t : Tbl (Nat × Nat) Nat) (i v : Nat) : Tbl (Nat × Nat) Nat := (List.range 12).foldl (fun t p => tset t (p, i) v) t

/-- ROUTE_SET. -/
def execRouteSet (via : Via) (s : State) : Host.Outcome State Fault Refusal :=
  .next (s.runDocket 0x0203 via (fun s b =>
    if idMax < param b 0 then s.invalid 0x10
    else ({ s with links := { s.links with routes := allCopies s.links.routes (param b 0) (param b 1 &&& 0x8FFF) } } : State).ok []))

/-- ROUTE_ALIAS. -/
def execRouteAlias (via : Via) (s : State) : Host.Outcome State Fault Refusal :=
  .next (s.runDocket 0x0204 via (fun s b =>
    if idMax < param b 0 then s.invalid 0x10
    else if idMax < param b 1 then s.invalid (paramAt 0x0204 1)
    else ({ s with links := { s.links with aliases := allCopies s.links.aliases (param b 0) (param b 1) } } : State).ok []))

/-- ROUTE_READ: entries of one port's copy, as 16 bits each. -/
def execRouteRead (via : Via) (s : State) : Host.Outcome State Fault Refusal :=
  .next (s.runDocket 0x0205 via (fun s b =>
    let p := param b 1
    let first := param b 2
    let n := param b 3
    let t := if param b 0 = 0 then s.links.routes else s.links.aliases
    if 1 < param b 0 then s.invalid 0x10
    else if 12 ≤ p then s.invalid (paramAt 0x0205 1)
    else if idMax < first then s.invalid (paramAt 0x0205 2)
    else if idMax + 1 < first + n then s.invalid (paramAt 0x0205 3)
    else if !s.rangeNamed via (param b 4) (2 * n) then s.invalid (paramAt 0x0205 4)
    else (s.moantWrite (param b 4) ((List.range n).flatMap (fun i => u16 (tget t (p, first + i) 0)))).ok (u32 n)))

/-! ## The time source and training (R340, R437, R453) -/

/-- PM_SOURCE: one UP port, or 15 for none. -/
def execPmSource (via : Via) (s : State) : Host.Outcome State Fault Refusal :=
  .next (s.runDocket 0x0206 via (fun s b =>
    let p := param b 0
    let set := fun (x : Option Nat) =>
      ({ s with pm := { s.pm with source := x, lastReq := s.pm.master, exchange := none } } : State).ok []
    if p = 15 then set none
    else if 12 ≤ p then s.invalid 0x10
    else if (s.lport p).state ≠ 2 then s.busy
    else set (some p)))

/-- LINK_RETRAIN: a port that is not enabled, or that waits for SELF_ID, cannot train. -/
def execLinkRetrain (via : Via) (s : State) : Host.Outcome State Fault Refusal :=
  .next (s.runDocket 0x0207 via (fun s b =>
    let p := param b 0
    if 12 ≤ p then s.invalid 0x10
    else if !(s.reg (.port p) 0).testBit 0 || s.links.selfId.isNone then s.busy
    else (s.retrain p).ok []))

/-- PM_STEP: the master takes what is left of its lead over the source in one step, under the rules of the first alignment. -/
def execPmStep (via : Via) (s : State) : Host.Outcome State Fault Refusal :=
  .next (s.runDocket 0x0208 via (fun s _ =>
    if s.pm.source.isNone || !s.pm.stepped then s.busy
    else
      let lead := s.pm.slew
      (s.stepMaster (BitVec.ofNat 64 ((s.pm.master.toNat : Int) - lead).toNat)).ok (u64 (wrapNat lead 64))))

/-! ## CKPT_SCAN (R416, R417) -/

/-- Send the reads of one slot's record: `at_` is where its bytes go. -/
def State.scanRead (s : State) (c id : Nat) (x : Scan) (at_ a : Nat) : List (Nat × Nat) → State × Scan
  | [] => (s, x)
  | (off, n) :: r =>
    let (s, t) := s.takeTxn
    let m := s.request c { typ := 2, dstId := id, dstRank := anyRank, len := n, addr := a + off, txn := t }
    match s.sendMsg c false none m with
    | none => (s, { x with failed := some 0 })
    | some s => s.scanRead c id { x with outst := x.outst ++ [⟨t, none, at_ + off, n⟩] } at_ a r

/-- A scan's parts replaced. -/
def State.setScan (s : State) (x : Scan) : State :=
  { s with host := { s.host with scans := s.host.scans.filter (fun y => y.via != x.via) ++ [x] } }

/-- A slot's size as its header gives it. -/
def slotSize (h : List Byte) : Nat := fieldAt h 0x10 8

/-- Whether a slot's header can have a trailer: the size holds both records. -/
def hasTrailer (h : List Byte) : Bool := decide (512 ≤ slotSize h) && decide (slotSize h < 2 ^ 48)

/-- The results for one slot: VALID, GEN, STEPNO as the header gives them. -/
def slotResult (h t : List Byte) : List (Nat × Nat) :=
  let gen := fieldAt h 4 4 % 65536
  let valid := hasTrailer h && fieldAt t 0 4 == 0x4C494154 && fieldAt t 4 4 % 65536 == gen && fieldAt t 8 4 == fieldAt h 8 4
  [(1, b2n valid), (2, gen), (4, fieldAt h 8 4)]

/-- A scan begins: both headers are read. -/
def State.scanBegin (s : State) (v : Via) (b : List Byte) : Done :=
  let c := dContext b
  if !s.contextExists c then s.invalid 8
  else if idMax < param b 0 then s.invalid 0x10
  else if param b 1 % 4096 ≠ 0 ∨ 2 ^ 41 ≤ param b 1 then s.invalid (paramAt 0x0400 1)
  else if param b 2 % 4096 ≠ 0 ∨ 2 ^ 41 ≤ param b 2 then s.invalid (paramAt 0x0400 2)
  else
    let x : Scan := { via := v, started := s.pm.ran, headers := List.replicate 512 0, got := List.replicate 512 0 }
    let (s, x) := s.scanRead c (param b 0) x 0 (param b 1) [(0, 256)]
    let (s, x) := s.scanRead c (param b 0) x 256 (param b 2) [(0, 256)]
    ⟨s.setScan x, .goesOn⟩

/-- The trailer reads of a slot, when its header can have one. -/
def State.trailerRead (s : State) (c id : Nat) (x : Scan) (at_ base : Nat) : State × Scan :=
  let h := (x.headers.drop at_).take 256
  if hasTrailer h then s.scanRead c id x at_ (base + slotSize h - 256) (cutsOf (base + slotSize h - 256) 256) else (s, x)

/-- A scan goes on: headers, trailers, the reply; no answer within the 2 ms of R480, or a refused read, fails it (log 80). -/
def State.scanStep (s : State) (v : Via) (b : List Byte) : Done :=
  let c := dContext b
  let drop := fun (s : State) => ({ s with host := { s.host with scans := s.host.scans.filter (fun y => y.via != v) } } : State)
  match s.host.scans.find? (fun x => x.via == v) with
  | none => s.scanBegin v b
  | some x =>
    if x.failed.isSome then (drop s).failedOpen
    else if !x.outst.isEmpty then (if x.started + 2000000 ≤ s.pm.ran then (drop s).failedOpen else ⟨s, .goesOn⟩)
    else if !x.trailers then
      let (s, x) := s.trailerRead c (param b 0) { x with trailers := true } 0 (param b 1)
      let (s, x) := s.trailerRead c (param b 0) x 256 (param b 2)
      ⟨s.setScan x, .goesOn⟩
    else
      let res := fun (at_ : Nat) => slotResult ((x.headers.drop at_).take 256) ((x.got.drop at_).take 256)
      (drop s).ok (packResults 0x10 (res 0 ++ res 256))

/-- CKPT_SCAN. -/
def execCkptScan (via : Via) (s : State) : Host.Outcome State Fault Refusal := .next (s.runDocket 0x0400 via (fun s b => s.scanStep via b))

end Sys2Proof.Machine
end

