-- ==== Sys2Proof/Machine/Dockets.lean ====
section
/-! DEFINITION. The dockets of resets and recovery, dumps, power, the strongroom, firmware, test and the host; Moant's own start (R361, R366, R407, R477, R478, R492 to R499, R504 to R509, R530). -/
namespace Sys2Proof.Machine

/-! ## Resets (R366, R477, R497, R504 to R509) -/

/-- Whether a trip still holds the module: its cause stands, or less than 1 s of samples has passed (R497). -/
def State.tripHolds (s : State) : Option Nat :=
  match s.pwr.trip with
  | some (row, _, at_) => if s.pwr.tripStands || decide (s.pwr.sampled < at_ + 1000000) then some row else none
  | none => none

/-- MODULE_RESET: the reply precedes the reset, which MODULE_RESET_START begins; on standby it is armed (R509). -/
def execModuleReset (via : Via) (s : State) : Host.Outcome State Fault Refusal :=
  .next (s.runDocket 0x0300 via (fun s _ =>
    match s.tripHolds with
    | some row => s.failed row
    | none => ({ s with pwr := { s.pwr with armed := true, trip := none } } : State).ok []))

/-- REGION_RESET. -/
def execRegionReset (via : Via) (s : State) : Host.Outcome State Fault Refusal :=
  .next (s.runDocket 0x0301 via (fun s b => if 8 ≤ param b 0 then s.invalid 0x10 else (s.regionReset (param b 0)).ok []))

/-- CONTEXT_RESET. -/
def execContextReset (via : Via) (s : State) : Host.Outcome State Fault Refusal :=
  .next (s.runDocket 0x0302 via (fun s b =>
    if !s.contextExists (dContext b) then s.invalid 8
    else if h : dContext b < 64 then (s.contextReset ⟨dContext b, h⟩).ok [] else s.invalid 8))

/-- CONTEXT_RESUME: a freeze is released (R334). -/
def execContextResume (via : Via) (s : State) : Host.Outcome State Fault Refusal :=
  .next (s.runDocket 0x0303 via (fun s b =>
    let c := dContext b
    if !s.contextExists c then s.invalid 8
    else ({ s with sync := { s.sync with frozen := s.sync.frozen.filter (fun x => x != c) } } : State).ok []))

/-- CORE_RELEASE: only after a third fault or BLOCK_RESET; core data memory stays. -/
def execCoreRelease (via : Via) (s : State) : Host.Outcome State Fault Refusal :=
  .next (s.runDocket 0x0304 via (fun s b =>
    let k := param b 0
    if 128 ≤ k ∨ (s.catCore k).state = 3 then s.invalid 0x10
    else if !s.stopped k || (s.core k).stopBy == 0 then s.busy
    else
      let s := s.blockResetCore k
      ((s.setPc k (codeAddr (BitVec.ofNat 64 (param b 1)))).setStat k 3).ok []))

/-- BLOCK_RESET of a core: it must be stopped or frozen. -/
def State.resetCoreBlock (s : State) (k : Nat) : Done :=
  if (s.catCore k).state = 3 then s.invalid 0x11
  else if s.stopped k || s.frozen (.cu k) || s.ctxFrozen k then
    ((s.blockResetCore k).modCore k (fun c => { c with stopBy := 2 })).ok []
  else s.busy

/-- BLOCK_RESET (R507). -/
def execBlockReset (via : Via) (s : State) : Host.Outcome State Fault Refusal :=
  .next (s.runDocket 0x0306 via (fun s b =>
    let d := param b 0
    let n := param b 1
    if h : d < 8 then
      if n < 16 then s.resetCoreBlock (16 * d + n)
      else if n < 18 then (s.blockResetStack d (n - 16)).ok []
      else if n < 20 then
        (match portAt d (n - 18) with
         | some p => (s.blockResetPort p).ok []
         | none => s.invalid 0x11)
      else if n = 20 then (s.blockResetCe ⟨d, h⟩).ok []
      else s.invalid 0x11
    else s.invalid 0x10))

/-! ## Recovery and dumps (R335 to R337, R360, R406, R407) -/

/-- RECOVER on a journal of context `c` (R406, R407, R409): TAG, STATE and chunks updated; an IN_FLIGHT journal is rolled back first, at a second command, so that UPE_STATE shows it. FAILED when the journal cannot be read or its rollback is not to be done (log 83). -/
def State.recover (s : State) (e c j : Nat) : Done :=
  let rd := s.upeRead e c j 256
  let s := rd.st
  let b := rd.bytes
  let chunk := fieldAt b 0 4
  let state := fieldAt b 4 2 % 8
  let tag := fieldAt b 6 2
  let reply := fun (s : State) (state n : Nat) => s.ok (packResults 0x10 [(2, tag), (1, state), (4, n)])
  if rd.poison then (s.setRolling e none).failedOpen
  else if state ≠ 2 then reply s state (if state = 0 ∨ state = 1 then 0 else chunk + 1)
  else match s.rollPlan e c j b with
  | none => (s.setRolling e none).failedOpen
  | some (r, stored) =>
    if (s.turnsOf e).rolling.isNone then ⟨s.setRolling e (some (c, chunk)), .goesOn⟩
    else if chunk = 0 then reply (s.rollDone e c j r stored 1 0 tag) 1 0
    else reply (s.rollDone e c j r stored 3 (chunk - 1) tag) 3 chunk

/-- RECOVER: the context is the one that holds the journal's granule. -/
def execRecover (via : Via) (s : State) : Host.Outcome State Fault Refusal :=
  .next (s.runDocket 0x0305 via (fun s b =>
    let e := param b 0
    let j := param b 1
    if 16 ≤ e then s.invalid 0x10
    else if j % 256 ≠ 0 ∨ !inStack e j 256 ∨ !s.rangeNamed via j 256 then s.invalid (paramAt 0x0305 1)
    else if s.journalBusy e j then s.busy
    else s.recover e (tget s.cat.granules (j / 2 ^ 30) {}).ctx j))

/-- SYNC_DUMP: FAILED when nothing may be written (R337); a completed dump sets DUMP_DONE of the region that leads it (R346). -/
def execSyncDump (via : Via) (s : State) : Host.Outcome State Fault Refusal :=
  .next (s.runDocket 0x0500 via (fun s b =>
    let c := dContext b
    if !s.contextExists c then s.invalid 8
    else match s.pmArea c with
    | none => s.failedOpen
    | some a => ((s.writeDump c a (s.dumpHeader c 1)).raise (.sync (s.lead c)) 0 3).ok []))

/-- DEADLETTER_READ: a virtual function's core must be lent to its context. -/
def execDeadletterRead (via : Via) (s : State) : Host.Outcome State Fault Refusal :=
  .next (s.runDocket 0x0501 via (fun s b =>
    let k := param b 0
    if 128 ≤ k ∨ (s.catCore k).state = 3 ∨ (viaFn via ≠ 0 ∧ s.coreCtx k ≠ some (viaFn via)) then s.invalid 0x10
    else s.ok (s.dmemBytes k boxAt 256)))

/-! ## Power (R492) -/

/-- The strongroom's sustained limit: row 3 of R495's clamp levels. -/
def State.sustained (s : State) : Nat := (s.srm.limits.getD 3 (0, 0)).1

/-- POWER_LIMIT. -/
def execPowerLimit (via : Via) (s : State) : Host.Outcome State Fault Refusal :=
  .next (s.runDocket 0x0600 via (fun s b =>
    let w := param b 0
    if w < 1500 ∨ 5600 < w then s.invalid 0x10
    else
      let g := min w s.sustained
      let s := if g = s.pwr.hostLimit then s else s.raise .mpwr 0 4
      ({ s with pwr := { s.pwr with hostLimit := g } } : State).ok (u16 g)))

/-- POWER_READ. -/
def execPowerRead (via : Via) (s : State) : Host.Outcome State Fault Refusal :=
  .next (s.runDocket 0x0601 via (fun s _ => s.ok (packResults 0x10 [(4, s.pwr.mv), (4, s.pwr.ma), (2, s.pwr.watts), (2, s.pwr.hottest)])))

/-! ## The strongroom (R493, R498, R499) -/

/-- What the strongroom holds of a record, as numbers (R493). -/
def Srm.content (m : Srm) (n : Nat) : List Nat :=
  let entry := fun (x : Nat × LedgerEntry) => [x.1, x.2.minutes, x.2.slack, x.2.site, x.2.drift, x.2.offset, x.2.cap]
  match n with
  | 0 => [m.serial.toNat, m.firmware.toNat] ++ m.versions.flatMap (fun x => [x.1, x.2])
  | 1 => m.current :: m.limits.flatMap (fun x => [x.1, x.2])
  | 2 => m.fuse.flatMap (fun x => x.1 :: x.2.2 :: x.2.1) ++ m.record2.lanes.flatMap (fun x => [x.1.1, x.1.2, x.2])
      ++ m.record2.guards.flatMap (fun x => [x.1, x.2]) ++ m.record2.energies.flatMap (fun x => [x.1.1, x.1.2, x.2])
      ++ m.record2.tables :: m.repairs ++ m.trims.map (·.toNat)
  | 3 => m.ledger.flatMap entry
  | 4 => m.daily.flatMap (fun x => x.2.flatMap (fun y => entry (x.1, y)))
  | 5 => m.trips.flatMap (fun x => [x.row, x.value, x.minutes])
  | 6 => m.updates.map b2n
  | _ => b2n m.testEnable :: m.testHistory.map b2n

/-- SRM_READ: bytes of a record, which its content fixes in a layout that nothing states (log 12). -/
def execSrmRead (via : Via) (s : State) : Host.Outcome State Fault Refusal :=
  .next (s.runDocket 0x0700 via (fun s b =>
    let r := param b 0
    let n := param b 2
    if 7 < r then s.invalid 0x10
    else if 992 < n then s.invalid (paramAt 0x0700 2)
    else s.ok ((List.range n).map (fun i => Config.recordByte r (s.srm.content r) (param b 1 + i)))))

/-- Whether every limit of a package is within its fused maximum (R498). -/
def limitsAllowed (l : List (Nat × Nat)) : Bool :=
  let fused := ({ } : Srm).limits
  l.length == fused.length && (List.zip l fused).all (fun x => decide (x.1.1 ≤ x.2.1) && decide (x.1.2 ≤ x.2.2))

/-- Whether the strongroom accepts a package (R498). -/
def State.packageOkay (s : State) (p : List Byte) : Bool :=
  let rec_ := fieldAt p 0x10 2
  let n := fieldAt p 0x14 4
  decide (0x80 + n + 96 = p.length) && fieldAt p 0 4 == 0x4B505253
    && decide (tget s.srm.versions rec_ 0 < fieldAt p 4 4)
    && (fieldAt p 8 8 == 0 || fieldAt p 8 8 == s.srm.serial.toNat)
    && (rec_ == 1 || rec_ == 2 || rec_ == 7) && Config.sigValid p
    && (rec_ != 1 || limitsAllowed (Config.packageLimits ((p.drop 0x80).take n)))

/-- An accepted package takes effect: limits at the next sample, and only a limit that changes sets its flag (R511), the fuse shadow at the next module reset (R21), and the strongroom writes its calibration frame with the trims of record 2 (R18, R66, R498; log 17). -/
def State.applyPackage (s : State) (p : List Byte) : State :=
  let rec_ := fieldAt p 0x10 2
  let body := (p.drop 0x80).take (fieldAt p 0x14 4)
  let m : Srm := { s.srm with versions := tset s.srm.versions rec_ (fieldAt p 4 4) }
  if rec_ = 1 then
    let t : State := { s with srm := { m with limits := Config.packageLimits body } }
    if t.srm.limits = s.srm.limits then t else t.raise .mpwr 0 4
  else if rec_ = 2 then { s with srm := { m with
    record2 :=
      { lanes := (List.range 96).map (fun i => ((i / 8, i % 8), (Config.packageLane body (i / 8) (i % 8)).toNat))
        guards := (List.range 8).map (fun d => (d, (Config.packageGuard body d).toNat))
        energies := (List.range 256).map (fun i => ((i / 32, i % 32), (Config.packageEnergy body (i / 32) (i % 32)).toNat))
        tables := fieldAt p 4 4 }
    fuse := (List.range 8).map (fun d => (d, Config.packageSites body d)), trims := (List.range 2).map (Config.packageTrims body), repairs := (Config.packageRepairs body).filter (fun j => decide (j < 16)) } }
  else { s with srm := m }

/-- The last `n` of a log. -/
def lastOf {α : Type} (n : Nat) (l : List α) : List α := l.drop (l.length - n)

/-- SRM_UPDATE: accepted or not, the package is logged. -/
def execSrmUpdate (via : Via) (s : State) : Host.Outcome State Fault Refusal :=
  .next (s.runDocket 0x0701 via (fun s b =>
    let a := param b 0
    let n := param b 1
    if !s.rangeNamed via a n then s.invalid 0x10
    else if 65536 < n then s.invalid (paramAt 0x0701 1)
    else
      let r := s.readPhys .mpwr 0xFF a n
      let yes := !r.poison && r.st.packageOkay r.bytes
      let s : State := { r.st with srm := { r.st.srm with updates := lastOf 64 (r.st.srm.updates ++ [yes]) } }
      if yes then
        let s := s.applyPackage r.bytes
        ({ s with host := { s.host with nvBusy := true } } : State).ok []
      else s.failedOpen))

/-- TEST_ENABLE. -/
def execTestEnable (via : Via) (s : State) : Host.Outcome State Fault Refusal :=
  .next (s.runDocket 0x0900 via (fun s _ =>
    ({ s with srm := { s.srm with testEnable := true, testHistory := s.srm.testHistory ++ [true] } } : State).ok []))

/-- The perturbation fields of a region return to their reset values (R530); WB controls stay. -/
def State.clearPerturb (s : State) (d : Nat) : State :=
  [0x10, 0x14, 0x18, 0x1C, 0x20].foldl (fun s o => s.setReg (.ptb d) o (s.reg (.ptb d) o &&& (0xFFFFFFFF ^^^ ptbMask o))) s

/-- TEST_DISABLE. -/
def execTestDisable (via : Via) (s : State) : Host.Outcome State Fault Refusal :=
  .next (s.runDocket 0x0901 via (fun s _ =>
    let s : State := { s with srm := { s.srm with testEnable := false, testHistory := s.srm.testHistory ++ [false] } }
    ((List.range 8).foldl State.clearPerturb s).ok []))

/-! ## Firmware and the host (R477, R478, R508) -/

/-- FW_UPDATE: the staged level is the image's own (log 12). -/
def execFwUpdate (via : Via) (s : State) : Host.Outcome State Fault Refusal :=
  .next (s.runDocket 0x0800 via (fun s b =>
    let a := param b 0
    let n := param b 1
    if !s.rangeNamed via a n then s.invalid 0x10
    else if s.host.nvBusy then s.busy
    else
      let r := s.readPhys .mpwr 0xFF a n
      if r.poison || !Config.fwImageValid r.bytes then r.st.failedOpen
      else
        let lv := (Config.freeValue r.st.freeCtr).setWidth 32
        ({ r.st with freeCtr := r.st.freeCtr + 1, host := { r.st.host with fwImage := true, fwStaged := lv, nvBusy := true } } : State).ok []))

/-- NONVOLATILE_WRITE_DONE: progress reaches 100%. -/
def execNonvolatileWriteDone (s : State) : Host.Outcome State Fault Refusal :=
  .next { s with host := { s.host with nvBusy := false } }

/-- FW_ACTIVATE: Moant stops after the reply and starts from the staged image. -/
def execFwActivate (via : Via) (s : State) : Host.Outcome State Fault Refusal :=
  .next (s.runDocket 0x0801 via (fun s _ =>
    if s.host.nvBusy then s.busy
    else if !s.host.fwImage then s.failedOpen
    else ({ s with host := { s.host with restart := true }, pwr := { s.pwr with moant := false } } : State).ok []))

/-- FW_INFO: while the store is being written its progress is some percentage below 100. -/
def execFwInfo (via : Via) (s : State) : Host.Outcome State Fault Refusal :=
  .next (s.runDocket 0x0802 via (fun s _ =>
    let pc := if s.host.nvBusy then (Config.freeValue s.freeCtr).toNat % 100 else 100
    ({ s with freeCtr := s.freeCtr + 1 } : State).ok
      (packResults 0x10 [(4, s.host.fwActive.toNat), (4, s.host.fwStaged.toNat), (1, pc)])))

/-- MOANT_RUNNING: after standby power-on or FW_ACTIVATE, Moant runs. -/
def execMoantRunning (s : State) : Host.Outcome State Fault Refusal :=
  .next (
    if !s.pwr.standby then s
    else
      { s with
        pwr := { s.pwr with moant := true }
        host := { s.host with restart := false, fwActive := if s.host.restart then s.host.fwStaged else s.host.fwActive } })

/-- HOST_STATUS: the link as it trained (R460; log 82); it is down while PERST# is asserted. -/
def execHostStatus (via : Via) (s : State) : Host.Outcome State Fault Refusal :=
  .next (s.runDocket 0x0A00 via (fun s _ =>
    let up := s.host.linkUp && !s.pwr.perst
    s.ok (packResults 0x10 [(1, b2n up), (1, s.host.linkRate), (1, s.host.linkWidth), (1, s.host.vfs), (1, b2n s.pwr.input)])))

/-- ECHO. -/
def execEcho (via : Via) (s : State) : Host.Outcome State Fault Refusal :=
  .next (s.runDocket 0x0A01 via (fun s b => s.ok ((b.take (dLength b - 4)).drop 0x10)))

end Sys2Proof.Machine
end

