-- ==== Sys2Proof/Machine/Events.lean ====
section
/-! DEFINITION. The event fabric at work, and errors in stores: hops, rings, forwarding, snapshots; ECC, poison, frozen cells, stack reports (R513 to R528, R535, R545). -/
namespace Sys2Proof.Machine

/-! ## Hops (R517) -/

/-- The lowest class among records. -/
def lowestClass (l : List EvRec) : Option Nat := [0, 1, 2].find? (fun c => l.any (fun r => classOf r.code == c))

/-- Round-robin: the next of the waiting inputs after the one last served. -/
def nextInput (last : Nat) (l : List Nat) : Option Nat :=
  let least := fun (l : List Nat) => l.foldl (fun m x => match m with | none => some x | some y => some (min x y)) none
  match least (l.filter (fun x => decide (last < x))) with
  | some x => some x
  | none => least l

/-- The number of a source among its hop's inputs. -/
def EvRec.inputNo (r : EvRec) : Nat := r.source / 0x4000

/-- The record a hub forwards next. -/
def State.hubPick (s : State) (h : Nat) : Option (EvRec × List EvRec) :=
  let l := tget s.ev.hubs h []
  match lowestClass l with
  | none => none
  | some c =>
    match nextInput (tget s.ev.served h 0) ((l.filter (fun r => classOf r.code == c)).map EvRec.inputNo) with
    | none => none
    | some n => takeFirst (fun r => classOf r.code == c && r.inputNo == n) (fun _ => false) l

/-- The first hop's counter of a class: records it passed on. -/
def sentCounter (cls : Nat) : Nat := 0x20 + 8 * cls

/-- HOP_FORWARD: a hub forwards one record to the root, and takes waiting outbox entries; `none` offers the registrar's own outboxes. -/
def execHopForward (hop : Option (Fin 8)) (s : State) : Host.Outcome State Fault Refusal :=
  .next (match hop with
    | none => s.offer 8 s.ev.outbox.length
    | some d =>
      let h := d.val
      match (if s.pwr.ready then s.hubPick h else none) with
      | none => s
      | some (r, rest) =>
        let buf := tget s.ev.root h []
        if !accepts (classOf r.code) buf.length then s
        else
          let s : State := { s with ev := { s.ev with
            hubs := tset s.ev.hubs h rest, root := tset s.ev.root h (buf ++ [r]), served := tset s.ev.served h r.inputNo } }
          (s.bump (.evt h) (sentCounter (classOf r.code)) 1).offer h s.ev.outbox.length)

/-! ## Rings (R514, R521 to R524) -/

/-- A record's 64 bytes at a ring position. -/
def EvRec.bytes (r : EvRec) (seq : W32) : List Byte :=
  match r.remote with
  | some _ => r.raw.take 0x20 ++ u32 seq.toNat ++ r.raw.drop 0x24
  | none =>
    u16 r.code ++ u8 (classOf r.code + 4 * b2n r.merged + 8 * b2n (r.gapCnt != 0)) ++ u8 r.ctx ++ u32 r.source ++ u64 r.first.toNat
      ++ u64 r.last.toNat ++ u32 r.count.toNat ++ u32 r.gapCnt.toNat ++ u32 seq.toNat ++ u16 0 ++ u16 r.accession.toNat ++ r.payload

/-- Free entries of a ring, from the CONSUMER last seen. -/
def RingSt.free (x : RingSt) : Nat := 2 ^ x.log2 - (x.producer - x.consumer).toNat

/-- Whether a ring has room for a class (R521). -/
def RingSt.room (x : RingSt) (cls : Nat) : Bool :=
  match cls with
  | 0 => decide (1 ≤ x.free)
  | 1 => decide (2 ^ x.log2 / 16 ≤ x.free)
  | _ => decide (2 ^ x.log2 / 4 ≤ x.free)

/-- A running ring. -/
def State.ring (s : State) (f : Nat) : Option RingSt := (s.ev.rings.find? (fun e => e.1 == f)).map (·.2)
/-- Replace it. -/
def State.setRing (s : State) (f : Nat) (x : RingSt) : State := { s with ev := { s.ev with rings := tset s.ev.rings f x } }

/-- Write and publish a record, then PRODUCER; vector 1 unless already sent since CONSUMER last changed (R521, R523). -/
def State.ringWrite (s : State) (f : Nat) (x : RingSt) (r : EvRec) : State :=
  let s := s.writePhys .revt 0xFF (x.addr + 0x80 + 64 * (x.producer.toNat % 2 ^ x.log2)) (r.bytes x.producer) false
  let s := s.writePhys .revt 0xFF x.addr (u32 (x.producer + 1).toNat) false
  let s := if x.signalled then s else s.msix f 1
  s.setRing f { x with producer := x.producer + 1, signalled := true }

/-- The copy of a record for its context's own ring; one without room is lost (R522). -/
def State.ringCopy (s : State) (r : EvRec) : State :=
  if r.remote.isSome ∨ r.ctx = 0 ∨ 63 < r.ctx then s
  else match s.ring r.ctx with
  | none => s
  | some x =>
    if x.room (classOf r.code) then s.ringWrite r.ctx x r
    else
      let s := s.writePhys .revt 0xFF (x.addr + 4) (u32 (x.lost + 1).toNat) false
      (s.setRing r.ctx { x with lost := x.lost + 1 }).raise .revt 0x40 0

/-- A delivered record forwarded to another module (R524; log 58). -/
def State.forwardRecord (s : State) (r : EvRec) (seq : W32) : State :=
  let v := s.reg .revt 0x800
  if !v.testBit 16 || r.remote.isSome || classOf r.code == 2 then s
  else
    let m : Msg := { typ := 7, len := 64, dstId := v % 16384, srcId := s.links.selfId.getD 0, dstRank := anyRank, srcRank := s.links.rank
                     job := s.jobOf r.ctx, txn := eventTxn, data := r.bytes seq }
    match s.sendMsg 0xFF (classOf r.code == 0) none m with
    | some s' => s'
    | none => s.forwardLost

/-- The record the root takes next: its input, the record, the rest of that input. -/
def State.rootPick (s : State) : Option (Nat × EvRec × List EvRec) :=
  let ins := List.range 10
  match lowestClass (ins.flatMap (fun i => tget s.ev.root i [])) with
  | none => none
  | some c =>
    match nextInput (tget s.ev.served 8 0) (ins.filter (fun i => (tget s.ev.root i []).any (fun r => classOf r.code == c))) with
    | none => none
    | some i => (takeFirst (fun r => classOf r.code == c) (fun _ => false) (tget s.ev.root i [])).map (fun x => (i, x.1, x.2))

/-- ROOT_RING_WRITE: the root delivers one record to the ring of record, with its copy and its forwarding (R521 to R524). -/
def execRootRingWrite (s : State) : Host.Outcome State Fault Refusal :=
  .next (s.served (fun s =>
    match s.ring 0, s.rootPick with
    | some x, some (i, r, rest) =>
      if !x.room (classOf r.code) then s
      else
        let s : State := { s with ev := { s.ev with root := tset s.ev.root i rest, served := tset s.ev.served 8 i } }
        let s := s.ringWrite 0 x r
        let s := (s.ringCopy r).forwardRecord r x.producer
        let s := s.bump .revt (sentCounter (classOf r.code)) 1
        if i = 8 then s.offer 8 s.ev.outbox.length else s
    | _, _ => s))

/-- CONSUMER_POLL: the root rereads a ring's CONSUMER (R521, R523). -/
def execConsumerPoll (f : Fin 64) (s : State) : Host.Outcome State Fault Refusal :=
  .next (s.served (fun s =>
    match s.ring f.val with
    | none => s
    | some x =>
      let rd := s.readPhys .revt 0xFF (x.addr + 0x40) 4
      let v := BitVec.ofNat 32 (leNat rd.bytes)
      if v = x.consumer then rd.st else rd.st.setRing f.val { x with consumer := v, signalled := false }))

/-! ## Snapshots (R235, R515, R533, R535) -/

/-- The counters of a frame: the offsets of their low words. -/
def countersOf (f : FrameId) : List Nat :=
  ((List.range 512).map (· * 8)).filter (fun o => match regInfo f o with | some i => i.kind == .ctrLo | none => false)

/-- One entry of a snapshot. -/
def State.snapEntry (s : State) (f : FrameId) (o : Nat) : List Byte := u16 o ++ leBytes 6 ((s.frame f).ctr f o)

/-- The snapshot records of one frame, three counters each. -/
def State.snapFrame (s : State) (f : FrameId) (ctx : Nat) : List (List Nat) → State
  | [] => s
  | l :: r => (s.event f 0x301 ctx 0 (l.flatMap (s.snapEntry f))).snapFrame f ctx r

/-- The counter frames of a region with the context each works for. -/
def State.counterFrames (s : State) (d : Nat) : List (FrameId × Nat) :=
  let cores := ((List.range 16).map (· + 16 * d)).filter (fun k => s.siteOf k != 0xFF)
  let ports := [0, 1].filterMap (portAt d)
  [(FrameId.evt d, 0xFF)] ++ cores.flatMap (fun k => [FrameId.cu k, .tcu k 0, .tcu k 1, .tcu k 2, .tcu k 3, .ae k, .mc k].map (fun f => (f, s.ctxByte k)))
    ++ [FrameId.stk d 0, .upe d 0, .stk d 1, .upe d 1].map (fun f => (f, 0xFF))
    ++ ports.flatMap (fun p => (FrameId.port p :: (List.range 8).map (fun l => FrameId.lane p l)).map (fun f => (f, 0xFF)))
    ++ [(FrameId.ce d, 0xFF)]

/-- The snapshots of several frames. -/
def State.snapFrames (s : State) : List (FrameId × Nat) → State
  | [] => s
  | (f, ctx) :: r => (s.snapFrame f ctx (chunksOf 3 4096 (countersOf f))).snapFrames r

/-- COUNTER_SNAPSHOT: with SNAP, every PERIOD each counter frame of the region produces its records. -/
def execCounterSnapshot (d : Fin 8) (now : W64) (s : State) : Host.Outcome State Fault Refusal :=
  .next (
    let s := s.advance now
    let d := d.val
    let v := s.reg (.evt d) 0x10
    let t := s.pm.ran
    if s.pwr.ready && v.testBit 0 && decide (tget s.ev.snaps d 0 + max 1 (bits v 8 16) * 1000 ≤ t) then
      (({ s with ev := { s.ev with snaps := tset s.ev.snaps d t } } : State)).snapFrames (s.counterFrames d)
    else s)

/-! ## Stack reports (R24, R280, R526, R545) -/

/-- STACK_TEMP_REPORT: the latest report; TEMP_HIGH at the clamp level of R495. -/
def execStackTempReport (d : Fin 8) (j : Fin 2) (degC : BitVec 8) (s : State) : Host.Outcome State Fault Refusal :=
  .next (
    if !s.pwr.ready then s
    else
      let s : State := { s with pwr := { s.pwr with stackTemps := tset s.pwr.stackTemps (d.val, j.val) degC.toNat } }
      if (s.srm.limits.getD 7 (95, 105)).1 ≤ degC.toNat then s.raise (.stk d.val j.val) 0x40 3 else s)

/-- MEMORY_UNCORRECTABLE: the sector is poisoned (R280). -/
def execMemoryUncorrectable (pa : BitVec 41) (s : State) : Host.Outcome State Fault Refusal :=
  .next (
    let a := pa.toNat
    if memTop ≤ a ∨ ¬s.pwr.ready then s
    else
      let f := FrameId.stk (regionOfPa a) (stackOfPa a)
      let s : State := { s with memPoison := setAdd s.memPoison (a / 128) }
      (s.bump f 0x108 1).flagEvent f 0x40 0 0x20C 0xFF (u64 a))

/-- Corrections in a store: a record once per 1 ms; those within 1 ms of the last record are counted into the next (R526; log 131). -/
def State.eccReport (s : State) (src : EccSource) (n : Nat) (report : State → Nat → State) (quiet : State → State) : State :=
  let put := fun (t more : Nat) => ({ s with ev := { s.ev with ecc := tset s.ev.ecc src (t, more) } } : State)
  match (s.ev.ecc.find? (fun e => e.1 == src)).map (·.2) with
  | none => report (put s.pm.ran 0) n
  | some (t, more) => if t + 1000000 ≤ s.pm.ran then report (put s.pm.ran 0) (more + n) else quiet (put t (more + n))

/-- ECC_CORRECTED: a store's corrections; a stack counts them and sets its flag (R526, R545). -/
def execEccCorrected (src : EccSource) (count : W32) (s : State) : Host.Outcome State Fault Refusal :=
  .next (
    if count = 0 ∨ ¬s.pwr.ready then s
    else match src with
    | .core k =>
      if s.siteOf k.val = 0xFF then s
      else s.eccReport src count.toNat (fun s n => s.event (.cu k.val) 0x20B (s.ctxByte k.val) 0 (u32 n)) id
    | .stack d j =>
      let f := FrameId.stk d.val j.val
      (s.bump f 0x100 count.toNat).eccReport src count.toNat (fun s n => s.flagEvent f 0x40 2 0x20B 0xFF (u32 n)) (fun s => s.raise f 0x40 2))

/-- ERROR_CHECK_AND_SCRUB (R545). -/
def execErrorCheckAndScrub (d : Fin 8) (j : Fin 2) (s : State) : Host.Outcome State Fault Refusal :=
  .next (if s.pwr.ready then s.raise (.stk d.val j.val) 0x40 1 else s)

/-- REFRESH_OVERRUN (R545). -/
def execRefreshOverrun (d : Fin 8) (j : Fin 2) (s : State) : Host.Outcome State Fault Refusal :=
  .next (if s.pwr.ready then s.raise (.stk d.val j.val) 0x40 5 else s)

/-! ## Errors in on-core stores (R526) -/

/-- POISON_CREATED, with a physical address or the store's index (log 69). -/
def State.poisonCreated (s : State) (k : Nat) (f : FrameId) (index : Nat) : State := s.event f 0x20C (s.ctxByte k) 0 (u64 index)

/-- Poison a row of a tile store; a row that was never written is one of zeros. -/
def State.poisonRow (s : State) (k a t row : Nat) : State :=
  s.modArr k a (fun x => { x with stores := tset x.stores t (let y := x.store t
    { y with rows := tset y.rows row { tget y.rows row {} with poison := true } }) })

/-- DOUBLE_BIT_ERROR: what is stored at the struck place is poisoned; a place that holds nothing stays as it is. -/
def execDoubleBitError (k : Fin 128) (store : DataStore) (s : State) : Host.Outcome State Fault Refusal :=
  .next (
    let k := k.val
    if s.siteOf k = 0xFF ∨ ¬s.pwr.ready then s
    else match store with
    | .mcache set way sec =>
      let key := (set.val, way.val)
      (match (s.cache k).lines.find? (fun e => e.1 == key) with
       | none => s
       | some (_, l) =>
         let x := l.sectors.getD sec.val {}
         if !x.valid then s
         else
           let s := s.modCache k (fun c => { c with lines := tset c.lines key { l with sectors := listSet l.sectors sec.val { x with poison := true } } })
           s.poisonCreated k (.mc k) (lineBase set.val l.tag + 128 * sec.val))
    | .tray i =>
      (match (s.cache k).tray[i.val]? with
       | none => s
       | some e => (s.modCache k (fun c => { c with tray := listSet c.tray i.val { e with poison := true } })).poisonCreated k (.mc k) (e.sector * 128))
    | .queue q i =>
      (match (s.queue k q.val)[i.val]? with
       | none => s
       | some e => (s.setQueue k q.val (listSet (s.queue k q.val) i.val { e with poison := true })).poisonCreated k (.ae k) (q.val * 64 + i.val))
    | .tile a t row => (s.poisonRow k a.val t.val row.val).poisonCreated k (.tcu k a.val) (t.val * 128 + row.val)
    | .accumulator a t row => (s.poisonRow k a.val (8 + t.val) row.val).poisonCreated k (.tcu k a.val) (8 * 128 + t.val * 256 + row.val)
    | .weight a shadow row =>
      let s := s.modArr k a.val (fun x =>
        if shadow then { x with wShadow := tset x.wShadow row.val { tget x.wShadow row.val {} with poison := true } }
        else { x with gens := (match x.gens.getLast? with
          | some g => listSet x.gens (x.gens.length - 1) { g with rows := tset g.rows row.val { tget g.rows row.val {} with poison := true } }
          | none => []) })
      s.poisonCreated k (.tcu k a.val) (8 * 128 + 2 * 256 + 128 * b2n shadow + row.val)
    | .dmem block => (s.modCore k (fun c => { c with dpoison := setAdd c.dpoison block.val })).poisonCreated k (.cu k) block.val)

/-- A cell freezes on an uncorrectable error in its control store (R61, R526). -/
def State.freezeCell (s : State) (f : FrameId) (ctx : Nat) : State :=
  if s.ownFrozen f then s else (s.modFrame f (fun fr => { fr with frozen := true })).event f 0x10C ctx 0 (u8 0 ++ u8 1)

/-- CONTROL_STORE_UNCORRECTABLE. -/
def execControlStoreUncorrectable (store : ControlStore) (s : State) : Host.Outcome State Fault Refusal :=
  .next (
    let onCore := fun (k : Nat) (f : FrameId) => if s.siteOf k = 0xFF then s else s.freezeCell f (s.ctxByte k)
    if !s.pwr.ready then s
    else match store with
    | .commandQueue k a => onCore k.val (.tcu k.val a.val)
    | .descriptorTable k => onCore k.val (.ae k.val)
    | .sortingFrame k => onCore k.val (.ae k.val)
    | .syncObject d => s.freezeCell (.sync d.val) 0xFF)

/-- CACHE_PARITY_ERROR: the entry is discarded; an instruction cache holds nothing in this model (log 1). -/
def execCacheParityError (k : Fin 128) (store : CacheStore) (s : State) : Host.Outcome State Fault Refusal :=
  .next (match store with
    | .translation i => s.modAe k.val (fun a => { a with tlbM := tdel a.tlbM i, tlbG := if i < 64 then a.tlbG else tdel a.tlbG (i - 64) })
    | .instruction => s)

end Sys2Proof.Machine
end

