-- ==== Sys2Proof/Machine/Fences.lean ====
section
/-! DEFINITION. Fences, cache maintenance, discarding translations, and the register forms of these (R274, R290 to R293, R298 to R301, R305, R307, R309). -/
namespace Sys2Proof.Machine

/-! ## Fences (R300, R301) -/

/-- FENCE: waits until every earlier access of the core is performed. -/
def execFence (i : Issue) (s : State) : Host.Outcome State Fault Refusal :=
  s.coreStep i (.fence i) { wait := fun s => if (s.fenceWrites i.core.val).isEmpty then none else some (.fence, s) }

/-- FENCE.AE: in addition every earlier descriptor has completed; its wait is an acquire (R296). -/
def execFenceAe (i : Issue) (s : State) : Host.Outcome State Fault Refusal :=
  let k := i.core.val
  s.coreStep i (.fenceAe i)
    { wait := fun s => if (s.fenceWrites k).isEmpty && (s.ae k).descs.isEmpty then none else some (.descriptors, s)
      run := fun s => s.acquire k }

/-- ACQUIRE: as FENCE, then the tray is emptied. -/
def execAcquire (i : Issue) (s : State) : Host.Outcome State Fault Refusal :=
  let k := i.core.val
  s.coreStep i (.acquire i)
    { wait := fun s => if (s.fenceWrites k).isEmpty then none else some (.fence, s), run := fun s => s.acquire k }

/-! ## Maintenance by address (R292, R298) -/

/-- The dirty ones of some sectors, as the parts of write-backs. -/
def State.dirtyOf (s : State) (k : Nat) (secs : List Nat) : List WPart :=
  secs.filterMap (fun sec => match (s.cache k).sector sec with
    | some (_, x) => if x.dirty then some ⟨sec * 128, x.data, x.poison⟩ else none
    | none => none)

/-- Mark a sector clean. -/
def State.cleanSector (s : State) (k sec : Nat) : State :=
  match (s.cache k).sector sec with
  | some (w, x) => s.modCache k (fun c => c.putSector w sec { x with dirty := false })
  | none => s

/-- Drop a sector: the cache copy, and a fill in flight is discarded on arrival. -/
def State.invalidateSector (s : State) (k sec : Nat) : State :=
  let s : State := match (s.cache k).sector sec with
    | some (w, _) => s.modCache k (fun c => c.putSector w sec {})
    | none => s
  s.modAe k (fun a => { a with slots := a.slots.map (fun r => r.unfill (fun n => n == sec)) })

/-- One sector under a maintenance operation; any of the three drops its tray entry, which R296 does not count, and marks a prefetch of it in flight (R298). -/
def State.maintSector (s : State) (k : Nat) (clean inv : Bool) (sec : Nat) : State :=
  let s := s.dropTray k false true (fun n => n == sec)
  let s := if clean then s.cleanSector k sec else s
  if inv then s.invalidateSector k sec else s

/-- The sectors of a translated piece. -/
def segSectors (g : Seg) : List Nat := (List.range ((g.pa + g.len - 1) / 128 - g.pa / 128 + 1)).map (· + g.pa / 128)

/-- A by-address operation over the mapped pages of a range: each sector is acted on, and the dirty data goes back line by line through the sorting frame (R255, R292, R293). DESIGN CHOICE (log 142): a page the access may not read, one without U at user level among them, and an address that is not canonical are skipped as an unmapped page is. -/
def State.maintRange (s : State) (k : Nat) (clean inv : Bool) (va n : Nat) : State :=
  if n = 0 then s
  else
    let (s, segs, _) := s.xlateOpen k (s.access k false) (pageCuts (n / 2 ^ 21 + 2) va n)
    let secs := segs.flatMap segSectors
    let back := if clean then lineGroups (s.dirtyOf k secs) else []
    (secs.foldl (fun s sec => s.maintSector k clean inv sec) s).toFrame k (back.map (fun p => { desc := none, parts := p, maint := 2 }))

/-- Whether a write-back that a maintenance operation started has not been accepted. -/
def State.backsLeft (s : State) (k m : Nat) : Bool :=
  (s.ae k).writes.any (fun w => w.evict && w.maint == m) || ((s.ae k).frame ++ (s.ae k).again).any (fun r => r.evict && r.maint == m)

/-- A maintenance instruction keeps the core from a boundary until it completes (R293, R363). -/
def State.maintHolds (s : State) (k op : Nat) (ins : Instr) : State :=
  s.modCore k (fun c => { c with waiting := some { kind := .maint op, since := s.copyOf (regionOf k), policy := 0, instr := ins } })

/-- It completes: issue goes on past it. -/
def State.maintReleases (s : State) (k : Nat) : State := (s.modCore k (fun c => { c with waiting := none })).skip k 4

/-- A by-address maintenance instruction: I:( addr n → ), n limited to 65,536; it completes once the write-backs it started are accepted (R293). -/
def maintOp (i : Issue) (ins : Instr) (clean inv : Bool) : CoreOp :=
  let k := i.core.val
  { ipop := 2
    ownPc := true
    wait := fun s => if s.readsGo k [] && !s.walkHeld k (s.access k false) (s.itop k 1).toNat (min (s.itop k 0).toNat 65536) then none else some (.memory, s)
    run := fun s =>
      let t := (s.maintRange k clean inv (s.itop k 1).toNat (min (s.itop k 0).toNat 65536)).ipop k 2
      if t.backsLeft k 2 then t.maintHolds k 0 ins else t.skip k 4 }

/-- MCINV: invalidates, discarding dirty data. -/
def execMcinv (i : Issue) (s : State) : Host.Outcome State Fault Refusal := s.coreStep i (.mcinv i) (maintOp i (.mcinv i) false true)
/-- MCCLN: writes dirty sectors back and marks them clean. -/
def execMccln (i : Issue) (s : State) : Host.Outcome State Fault Refusal := s.coreStep i (.mccln i) (maintOp i (.mccln i) true false)
/-- MCCLI: cleans, then invalidates. -/
def execMccli (i : Issue) (s : State) : Host.Outcome State Fault Refusal := s.coreStep i (.mccli i) (maintOp i (.mccli i) true true)

/-! ## Full operations (R292, R293) -/

/-- A full operation by instruction: no later instruction issues, and no cause is taken, until it completes (R293, R363). -/
def fullOp (i : Issue) (ins : Instr) (op : Nat) : CoreOp :=
  let k := i.core.val
  { wait := fun s => if s.frozen (.mc k) then some (.memory, s) else none
    ownPc := true
    run := fun s => (s.maintRequest k op true).maintHolds k op ins }

/-- MCINV.ALL: supervisor only. -/
def execMcinvAll (i : Issue) (s : State) : Host.Outcome State Fault Refusal :=
  s.coreStep i (.mcinvAll i) { fullOp i (.mcinvAll i) 1 with pre := s.supervisorOnly i }
/-- MCCLN.ALL. -/
def execMcclnAll (i : Issue) (s : State) : Host.Outcome State Fault Refusal := s.coreStep i (.mcclnAll i) (fullOp i (.mcclnAll i) 2)
/-- TRAYINV. -/
def execTrayinv (i : Issue) (s : State) : Host.Outcome State Fault Refusal := s.coreStep i (.trayinv i) (fullOp i (.trayinv i) 3)

/-- Mark the first waiting full operation running. -/
def State.maintNext (s : State) (k : Nat) : State :=
  match (s.cache k).maint with
  | [] => s
  | m :: r => (s.modCache k (fun c => { c with maint := { m with running := true } :: r })).maintStart k m.op

/-- Whether a by-address operation's core only waits for this event: its write-backs are accepted. -/
def State.byAddressDone (s : State) (k : Nat) : Bool :=
  (match (s.core k).waiting with | some w => w.kind == .maint 0 | none => false) && !s.backsLeft k 2

/-- MAINTENANCE_COMPLETE (R293, R310): a by-address operation completes once the write-backs it started are accepted; the running full operation once those that it started are, and the next begins. -/
def execMaintenanceComplete (k : Fin 128) (s : State) : Host.Outcome State Fault Refusal :=
  .next (
    let k := k.val
    if s.frozen (.mc k) || !s.pwr.ready then s
    else if s.byAddressDone k then s.maintReleases k
    else match (s.cache k).maint with
    | [] => s
    | m :: r =>
      if !m.running || (m.op == 2 && s.backsLeft k 1) then s
      else
        let s := s.modCache k (fun c => { c with maint := r })
        let s := if m.op = 1 then s.raise (.mc k) 0x10 0 else s
        let s : State := if m.byInstr then s.maintReleases k else s.raise (.mc k) 0x10 3
        s.maintNext k)

/-! ## Translations (R274) -/

/-- XINV: supervisor only. -/
def execXinv (i : Issue) (s : State) : Host.Outcome State Fault Refusal :=
  s.coreStep i (.xinv i) { pre := s.supervisorOnly i, run := fun s => s.modAe i.core.val Ae.flushTlb }

/-- Discard the translation that covers an address. -/
def Ae.dropXlate (a : Ae) (va : Nat) : Ae :=
  { a with tlbM := a.tlbM.filter (fun e => e.2.vpn != va / 2 ^ 21), tlbG := a.tlbG.filter (fun e => e.2.vpn != va / 2 ^ 30) }

/-- XINV.A: supervisor only. -/
def execXinvA (i : Issue) (s : State) : Host.Outcome State Fault Refusal :=
  let k := i.core.val
  s.coreStep i (.xinvA i)
    { ipop := 1, pre := s.supervisorOnly i
      run := fun s => (s.modAe k (fun a => a.dropXlate (s.itop k 0).toNat)).ipop k 1 }

/-! ## Register forms (R290, R293, R305, R307, R309) -/

/-- MCACHE_MAINT with OP = 1. -/
def execMaintMcinvAll (ag : Agent) (k : Fin 128) (s : State) : Host.Outcome State Fault Refusal := .next (s.write ag (s.bar0 (.mc k.val) + 4) 1)
/-- MCACHE_MAINT with OP = 2. -/
def execMaintMcclnAll (ag : Agent) (k : Fin 128) (s : State) : Host.Outcome State Fault Refusal := .next (s.write ag (s.bar0 (.mc k.val) + 4) 2)
/-- MCACHE_MAINT with OP = 3. -/
def execMaintTrayinv (ag : Agent) (k : Fin 128) (s : State) : Host.Outcome State Fault Refusal := .next (s.write ag (s.bar0 (.mc k.val) + 4) 3)
/-- MCACHE_ENABLE_WRITE: a write of MCACHE_CTRL. -/
def execMcacheEnableWrite (ag : Agent) (k : Fin 128) (v : W32) (s : State) : Host.Outcome State Fault Refusal := .next (s.write ag (s.bar0 (.mc k.val)) v.toNat)
/-- AE_XLATE_INV: a write of 1 to AE_XLATE.INV. -/
def execAeXlateInv (ag : Agent) (k : Fin 128) (s : State) : Host.Outcome State Fault Refusal := .next (s.write ag (s.bar0 (.ae k.val) + 0xC) 1)
/-- AE_QFLUSH. -/
def execAeQflush (ag : Agent) (k : Fin 128) (v : W32) (s : State) : Host.Outcome State Fault Refusal := .next (s.write ag (s.bar0 (.ae k.val) + 0x40) v.toNat)

end Sys2Proof.Machine
end

