-- ==== Sys2Proof/Machine/Host.lean ====
section
/-! DEFINITION. The host port: BAR2, function resets, SR-IOV, watches, letterbox submits; SMBus (R363, R364, R460 to R473, R481). -/
namespace Sys2Proof.Machine

/-! ## BAR2 (R465, R466, R468) -/

/-- BAR2 size of a function in bytes. -/
def State.bar2Size (s : State) (fn : Nat) : Nat := (if fn = 0 then s.host.bar2Pf else s.host.bar2Vf) * 2 ^ 30

/-- Whether a request lies in the BAR2 of an enabled function. -/
def State.inBar2 (s : State) (fn a n : Nat) : Bool := decide (fn ≤ s.host.vfs) && decide (a + n ≤ s.bar2Size fn)

/-- The physical address a BAR2 offset reaches. -/
def State.bar2Pa (s : State) (fn a : Nat) : Nat := s.reg (.func fn) 0x20 % 2048 * 2 ^ 30 + a

/-- Whether a function reaches a range: the physical function every granule, a virtual function its own; while a module reset runs, none (log 84). -/
def State.bar2Reach (s : State) (fn pa n : Nat) : Bool :=
  s.pwr.ready && decide (pa + n ≤ memTop) && (fn == 0 || n == 0 || s.rangeLent fn pa n)

/-- The completions of a read, none longer than Max Payload Size and each with its own poisoned bit (R460, R466). -/
def State.completions (s : State) (f : Nat) : List (Nat × Nat) → State
  | [] => s
  | (pa, n) :: r =>
    let x := s.readPhys (.func f) f pa n
    ({ x.st with out := x.st.out ++ [.completion f x.bytes x.poison] } : State).completions f r

/-- BAR2_READ: performed at the stack controller, and not before it accepts it; a refused one completes with Completer Abort. A read request is at most 4,096 bytes long (R460). -/
def execBar2Read (fn : Fin 64) (addr : BitVec 36) (len : Nat) (s : State) : Host.Outcome State Fault Refusal :=
  .next (
    let f := fn.val
    let s := s.hostHop
    let pa := s.bar2Pa f addr.toNat
    if 4096 < len then s.malformed f
    else if !s.inBar2 f addr.toNat len then s.readUnsupported f
    else if !s.bar2Reach f pa len then s.readAbort f
    else s.served (fun s => s.completions f (lineCuts pa len)))

/-- A dropped BAR2 write: BAR2_ERR, and the first offset since it was cleared (R465, R468). -/
def State.bar2Drop (s : State) (fn a : Nat) : State :=
  let f := FrameId.func fn
  let s := if (tget (s.frame f).flags 0x10 0).getLsbD 1 then s else (s.setReg f 0x18 (a % 2 ^ 32)).setReg f 0x1C (a / 2 ^ 32)
  s.raise f 0x10 1

/-- BAR2_WRITE: performed and published at the stack controller; a poisoned one writes poison and is reported (R466, R471). A write carries at most 512 bytes (R460). -/
def execBar2Write (fn : Fin 64) (addr : BitVec 36) (data : List Byte) (poisoned : Bool) (s : State) : Host.Outcome State Fault Refusal :=
  .next (
    let f := fn.val
    let s := s.hostHop
    let pa := s.bar2Pa f addr.toNat
    if 512 < data.length then s.malformed f
    else if !s.inBar2 f addr.toNat data.length then s.unsupported f
    else
    s.served (fun s =>
      let s := if poisoned then s.aer f .poisonedTlp else s
      if !s.bar2Reach f pa data.length then s.bar2Drop f addr.toNat
      else s.writePhys (.func f) f pa data poisoned))

/-- A function whose window no longer fits: GRANULE 0 and CFG_REFUSED. -/
def State.bar2Fit (s : State) (fn : Nat) : State :=
  if memTop < s.bar2Pa fn 0 + s.bar2Size fn then (s.setReg (.func fn) 0x20 0).raise (.func fn) 0x10 2 else s

/-- The windows of several functions. -/
def State.bar2Fits (s : State) : List Nat → State
  | [] => s
  | f :: r => (s.bar2Fit f).bar2Fits r

/-- BAR2_RESIZE: 1 GiB to 64 GiB in powers of 2; no other size is offered. -/
def execBar2Resize (vf : Bool) (gib : Nat) (s : State) : Host.Outcome State Fault Refusal :=
  .next (
    if [1, 2, 4, 8, 16, 32, 64].contains gib then
      if vf then ({ s with host := { s.host with bar2Vf := gib } } : State).bar2Fits ((List.range s.host.vfs).map (· + 1))
      else ({ s with host := { s.host with bar2Pf := gib } } : State).bar2Fit 0
    else s)

/-! ## Functions (R364, R472) -/

/-- FUNCTION_LEVEL_RESET: at once, or when the docket of the function is answered. -/
def execFunctionLevelReset (fn : Fin 64) (s : State) : Host.Outcome State Fault Refusal :=
  .next (
    if fn.val ≤ s.host.vfs then
      ({ s with host := { s.host with flr := s.host.flr.filter (fun x => x != fn.val) ++ [fn.val] } } : State).tryFlr fn.val
    else s)

/-- VF_ENABLE: contexts 1 to n come to exist. -/
def execVfEnable (n : BitVec 6) (s : State) : Host.Outcome State Fault Refusal :=
  .next (if s.host.vfs = 0 then { s with host := { s.host with vfs := n.toNat, fns := tdelWhere s.host.fns (fun f => f != 0) } } else s)

/-- VF_DISABLE: waits for dockets and loans of the functions, then every context is reset and gives back what was lent to it. -/
def execVfDisable (s : State) : Host.Outcome State Fault Refusal :=
  .next (if s.host.vfs = 0 then s else ({ s with host := { s.host with vfOff := true } } : State).afterDocket)

/-! ## Watches (R469, R470) -/

/-- WATCH_POLL: an armed watch compares its object's COUNTER, ordering nothing. -/
def execWatchPoll (fn : Fin 64) (n : BitVec 4) (now : W64) (s : State) : Host.Outcome State Fault Refusal :=
  .next (
    let s := s.advance now
    let c := fn.val
    let f := FrameId.func c
    let off := 0x100 + 8 * n.toNat
    let v := s.reg f off
    if !v.testBit 31 || !s.pwr.ready || decide (s.host.vfs < c) then s
    else match s.objOf (some c) (tget s.host.watchIds (c, n.toNat) (v % 4096)) with
    | none => (s.setReg f off (v % 2 ^ 31)).raise f 0x10 4
    | some o =>
      if s.reg f (off + 4) % 2 ^ 31 ≤ (s.obj o).counter then
        let s := (s.setReg f off (v % 2 ^ 31)).raise f 0x10 3
        s.msix c (2 + n.toNat)
      else s)

/-! ## Letterbox (R473) -/

/-- LB_SUBMIT: a write of 1 to the function's register. -/
def execLbSubmit (fn : Fin 64) (s : State) : Host.Outcome State Fault Refusal := .next (s.write (.host fn) 0x4000 1)
/-- LB_ACK. -/
def execLbAck (fn : Fin 64) (s : State) : Host.Outcome State Fault Refusal := .next (s.write (.host fn) 0x4008 1)

/-! ## SMBus (R481) -/

/-- Whether more than 1,024 bytes are assembled. -/
def HostSt.overlong (h : HostSt) : Bool := decide (1024 < h.smbAsm.length)

/-- SMB_READ_STATUS: BUSY, REPLY, overflow. -/
def execSmbReadStatus (s : State) : Host.Outcome State Fault Refusal :=
  .next (
    let v := b2n (s.docketBusy .smb) + 2 * b2n (s.replyReady .smb) + 4 * b2n (s.host.smbOvf || s.host.overlong)
    { s with out := s.out ++ [.smbus (u8 v)] })

/-- A transaction is NACKed and has no effect. -/
def State.smbNacked (s : State) : State := { s with out := s.out ++ [.smbNack] }

/-- SMB_BLOCK_WRITE: 1 to 255 bytes; one byte beyond 1,024 is remembered as too many. A transaction with a bad PEC, of whatever command, has no effect (log 120). -/
def execSmbBlockWrite (t : SmbWrite) (s : State) : Host.Outcome State Fault Refusal :=
  .next (
    if !t.pecOk || t.data.isEmpty || decide (255 < t.data.length) then s.smbNacked
    else { s with host := { s.host with smbAsm := (s.host.smbAsm ++ t.data).take 1025 } })

/-- SMB_SUBMIT: ignored while BUSY or REPLY is 1 or with too many bytes, setting the overflow bit (log 85). -/
def execSmbSubmit (s : State) : Host.Outcome State Fault Refusal :=
  .next (
    if s.docketBusy .smb || s.replyReady .smb || s.host.overlong then { s with host := { s.host with smbOvf := true } }
    else { s with host := { s.host with dockets := s.host.dockets ++ [⟨.smb, s.host.smbAsm, false⟩], smbAsm := [], smbOvf := false } })

/-- SMB_BLOCK_READ: the next bytes of the reply; without a reply nothing answers. -/
def execSmbBlockRead (len : Nat) (s : State) : Host.Outcome State Fault Refusal :=
  .next (
    let b := ((tget s.host.replies .smb []).drop s.host.smbPos).take (min len 255)
    if s.replyReady .smb then { s with host := { s.host with smbPos := s.host.smbPos + b.length }, out := s.out ++ [.smbus b] }
    else s.smbNacked)

/-- SMB_REPLY_ACK. -/
def execSmbReplyAck (s : State) : Host.Outcome State Fault Refusal :=
  .next (
    let s : State := if s.replyReady .smb then { s with out := s.out ++ [.smbAlert false] } else s
    { s with host := { s.host with replies := tdel s.host.replies .smb, smbPos := 0 } })

/-- SMB_DISCARD. -/
def execSmbDiscard (s : State) : Host.Outcome State Fault Refusal :=
  .next { s with host := { s.host with smbAsm := [], smbOvf := false } }

/-- SMB_ALERT_RESPONSE: answered with 0x4C while a reply waits. -/
def execSmbAlertResponse (s : State) : Host.Outcome State Fault Refusal :=
  .next { s with out := s.out ++ [if s.replyReady .smb then .smbus (u8 0x4C) else .smbNack] }

end Sys2Proof.Machine
end

