-- ==== Sys2Proof/Machine/Integer.lean ====
section
/-! DEFINITION. Integer, stack and predicate instructions (R114, R134, R137, R138). -/
namespace Sys2Proof.Machine

/-- Signed division, rounding toward zero; all ones on divisor 0; -2^63 by -1 is -2^63 (R114). -/
def divS (a b : W64) : W64 := if b = 0 then -1 else a.sdiv b
/-- Unsigned division; all ones on divisor 0 (R114). -/
def divU (a b : W64) : W64 := if b = 0 then -1 else a / b
/-- Signed remainder with the sign of the dividend; the dividend on divisor 0 (R114). -/
def remS (a b : W64) : W64 := if b = 0 then a else a.srem b
/-- Unsigned remainder; the dividend on divisor 0 (R114). -/
def remU (a b : W64) : W64 := if b = 0 then a else a % b
/-- The high half of the signed product (R137). -/
def mulHi (a b : W64) : W64 := BitVec.ofInt 64 (a.toInt * b.toInt / (2 : Int) ^ 64)
/-- The high half of the unsigned product (R137). -/
def mulHiU (a b : W64) : W64 := BitVec.ofNat 64 (a.toNat * b.toNat / 2 ^ 64)

/-- PUSHI (R137). -/
def execPushi (i : Issue) (imm : BitVec 20) (s : State) : Host.Outcome State Fault Refusal :=
  s.coreStep i (.pushi i imm) (int0 i (fun _ => imm.signExtend 64))

/-- PUSHU (R137). -/
def execPushu (i : Issue) (imm : BitVec 20) (s : State) : Host.Outcome State Fault Refusal :=
  s.coreStep i (.pushu i imm) (int1 i (fun a => (a <<< 20) ||| imm.setWidth 64))

/-- ADDI (R137). -/
def execAddi (i : Issue) (imm : BitVec 20) (s : State) : Host.Outcome State Fault Refusal :=
  s.coreStep i (.addi i imm) (int1 i (fun a => a + imm.signExtend 64))

/-- ADD (R114, R137). -/
def execAdd (i : Issue) (s : State) : Host.Outcome State Fault Refusal :=
  s.coreStep i (.add i) (int2 i (fun a b => a + b))

/-- SUB (R114, R137). -/
def execSub (i : Issue) (s : State) : Host.Outcome State Fault Refusal :=
  s.coreStep i (.sub i) (int2 i (fun a b => a - b))

/-- MUL (R114, R137). -/
def execMul (i : Issue) (s : State) : Host.Outcome State Fault Refusal :=
  s.coreStep i (.mul i) (int2 i (fun a b => a * b))

/-- MULH (R114, R137). -/
def execMulh (i : Issue) (s : State) : Host.Outcome State Fault Refusal :=
  s.coreStep i (.mulh i) (int2 i (mulHi))

/-- MULHU (R114, R137). -/
def execMulhu (i : Issue) (s : State) : Host.Outcome State Fault Refusal :=
  s.coreStep i (.mulhu i) (int2 i (mulHiU))

/-- DIV (R114, R137). -/
def execDiv (i : Issue) (s : State) : Host.Outcome State Fault Refusal :=
  s.coreStep i (.div i) (int2 i (divS))

/-- DIVU (R114, R137). -/
def execDivu (i : Issue) (s : State) : Host.Outcome State Fault Refusal :=
  s.coreStep i (.divu i) (int2 i (divU))

/-- REM (R114, R137). -/
def execRem (i : Issue) (s : State) : Host.Outcome State Fault Refusal :=
  s.coreStep i (.rem i) (int2 i (remS))

/-- REMU (R114, R137). -/
def execRemu (i : Issue) (s : State) : Host.Outcome State Fault Refusal :=
  s.coreStep i (.remu i) (int2 i (remU))

/-- AND (R114, R137). -/
def execAndI (i : Issue) (s : State) : Host.Outcome State Fault Refusal :=
  s.coreStep i (.andI i) (int2 i (fun a b => a &&& b))

/-- OR (R114, R137). -/
def execOrI (i : Issue) (s : State) : Host.Outcome State Fault Refusal :=
  s.coreStep i (.orI i) (int2 i (fun a b => a ||| b))

/-- XOR (R114, R137). -/
def execXorI (i : Issue) (s : State) : Host.Outcome State Fault Refusal :=
  s.coreStep i (.xorI i) (int2 i (fun a b => a ^^^ b))

/-- SHL: count modulo 64 (R114, R137). -/
def execShl (i : Issue) (s : State) : Host.Outcome State Fault Refusal :=
  s.coreStep i (.shl i) (int2 i (fun a b => a <<< (b.toNat % 64)))

/-- SHR: count modulo 64 (R114, R137). -/
def execShr (i : Issue) (s : State) : Host.Outcome State Fault Refusal :=
  s.coreStep i (.shr i) (int2 i (fun a b => a >>> (b.toNat % 64)))

/-- SAR: count modulo 64 (R114, R137). -/
def execSar (i : Issue) (s : State) : Host.Outcome State Fault Refusal :=
  s.coreStep i (.sar i) (int2 i (fun a b => a.sshiftRight (b.toNat % 64)))

/-- MIN, signed (R114, R137). -/
def execMinI (i : Issue) (s : State) : Host.Outcome State Fault Refusal :=
  s.coreStep i (.minI i) (int2 i (fun a b => if a.slt b then a else b))

/-- MAX, signed (R114, R137). -/
def execMaxI (i : Issue) (s : State) : Host.Outcome State Fault Refusal :=
  s.coreStep i (.maxI i) (int2 i (fun a b => if b.slt a then a else b))

/-- MINU (R114, R137). -/
def execMinu (i : Issue) (s : State) : Host.Outcome State Fault Refusal :=
  s.coreStep i (.minu i) (int2 i (fun a b => if a.ult b then a else b))

/-- MAXU (R114, R137). -/
def execMaxu (i : Issue) (s : State) : Host.Outcome State Fault Refusal :=
  s.coreStep i (.maxu i) (int2 i (fun a b => if b.ult a then a else b))

/-- NOT (R137). -/
def execNotI (i : Issue) (s : State) : Host.Outcome State Fault Refusal :=
  s.coreStep i (.notI i) (int1 i (fun a => ~~~a))

/-- NEG (R137). -/
def execNegI (i : Issue) (s : State) : Host.Outcome State Fault Refusal :=
  s.coreStep i (.negI i) (int1 i (fun a => -a))

/-- SEL: a when Pn, else b (R137). -/
def execSel (i : Issue) (pn : BitVec 4) (s : State) : Host.Outcome State Fault Refusal :=
  s.coreStep i (.sel i pn) 
    { ipop := 2, ipush := 1
      run := fun s => (s.ipop i.core 2).ipush i.core (if s.predBit i.core pn.toNat then s.itop i.core 1 else s.itop i.core 0) }

/-- DUP (R137). -/
def execDup (i : Issue) (s : State) : Host.Outcome State Fault Refusal :=
  s.coreStep i (.dup i) (intShuffle i 1 2 (fun l => l ++ l))

/-- DROP (R137). -/
def execDrop (i : Issue) (s : State) : Host.Outcome State Fault Refusal :=
  s.coreStep i (.drop i) (intShuffle i 1 0 (fun _ => []))

/-- SWAP (R137). -/
def execSwap (i : Issue) (s : State) : Host.Outcome State Fault Refusal :=
  s.coreStep i (.swap i) (intShuffle i 2 2 (fun l => l.reverse))

/-- OVER (R137). -/
def execOver (i : Issue) (s : State) : Host.Outcome State Fault Refusal :=
  s.coreStep i (.overI i) (intShuffle i 2 3 (fun l => l.drop 1 ++ l))

/-- ROT: a b c becomes b c a (R137). -/
def execRot (i : Issue) (s : State) : Host.Outcome State Fault Refusal :=
  s.coreStep i (.rot i) (intShuffle i 3 3 (fun l => l.drop 2 ++ l.take 2))

/-- NIP (R137). -/
def execNip (i : Issue) (s : State) : Host.Outcome State Fault Refusal :=
  s.coreStep i (.nip i) (intShuffle i 2 1 (fun l => l.take 1))

/-- PICK: x_k becomes the top as well (R137). -/
def execPick (i : Issue) (k : BitVec 4) (s : State) : Host.Outcome State Fault Refusal :=
  s.coreStep i (.pick i k) (intShuffle i (k.toNat + 1) (k.toNat + 2) (fun l => l.drop k.toNat ++ l))

/-- VDUP (R137). -/
def execVdup (i : Issue) (s : State) : Host.Outcome State Fault Refusal :=
  s.coreStep i (.vdup i) (slotShuffle i 1 2 (fun l => l ++ l))

/-- VDROP (R137). -/
def execVdrop (i : Issue) (s : State) : Host.Outcome State Fault Refusal :=
  s.coreStep i (.vdrop i) (slotShuffle i 1 0 (fun _ => []))

/-- VSWAP (R137). -/
def execVswap (i : Issue) (s : State) : Host.Outcome State Fault Refusal :=
  s.coreStep i (.vswap i) (slotShuffle i 2 2 (fun l => l.reverse))

/-- VOVER (R137). -/
def execVover (i : Issue) (s : State) : Host.Outcome State Fault Refusal :=
  s.coreStep i (.vover i) (slotShuffle i 2 3 (fun l => l.drop 1 ++ l))

/-- VROT: a b c becomes b c a (R137). -/
def execVrot (i : Issue) (s : State) : Host.Outcome State Fault Refusal :=
  s.coreStep i (.vrot i) (slotShuffle i 3 3 (fun l => l.drop 2 ++ l.take 2))

/-- ICMP: Pt = (a cc b); codes 10 to 15 are reserved (R138). -/
def execIcmp (i : Issue) (cc : BitVec 4) (pt : BitVec 4) (s : State) : Host.Outcome State Fault Refusal :=
  s.coreStep i (.icmp i cc pt) 
    { ipop := 2, reserved := decide (10 ≤ cc.toNat)
      run := fun s => (s.ipop i.core 2).setPred i.core pt.toNat (icmpHolds cc.toNat (s.itop i.core 1) (s.itop i.core 0)) }

/-- PAND (R134, R137). -/
def execPand (i : Issue) (pd : BitVec 4) (pa : BitVec 4) (pb : BitVec 4) (s : State) : Host.Outcome State Fault Refusal :=
  s.coreStep i (.pand i pd pa pb) 
    { run := fun s =>
        let a := s.predBit i.core pa.toNat
        let b := s.predBit i.core pb.toNat
        s.setPred i.core pd.toNat (a && b) }

/-- POR (R134, R137). -/
def execPor (i : Issue) (pd : BitVec 4) (pa : BitVec 4) (pb : BitVec 4) (s : State) : Host.Outcome State Fault Refusal :=
  s.coreStep i (.por i pd pa pb) 
    { run := fun s =>
        let a := s.predBit i.core pa.toNat
        let b := s.predBit i.core pb.toNat
        s.setPred i.core pd.toNat (a || b) }

/-- PXOR (R134, R137). -/
def execPxor (i : Issue) (pd : BitVec 4) (pa : BitVec 4) (pb : BitVec 4) (s : State) : Host.Outcome State Fault Refusal :=
  s.coreStep i (.pxor i pd pa pb) 
    { run := fun s =>
        let a := s.predBit i.core pa.toNat
        let b := s.predBit i.core pb.toNat
        s.setPred i.core pd.toNat (a != b) }

/-- PANDN: Pa AND NOT Pb (R134, R137). -/
def execPandn (i : Issue) (pd : BitVec 4) (pa : BitVec 4) (pb : BitVec 4) (s : State) : Host.Outcome State Fault Refusal :=
  s.coreStep i (.pandn i pd pa pb) 
    { run := fun s =>
        let a := s.predBit i.core pa.toNat
        let b := s.predBit i.core pb.toNat
        s.setPred i.core pd.toNat (a && !b) }

/-- PNOT (R134, R137). -/
def execPnot (i : Issue) (pd : BitVec 4) (pa : BitVec 4) (s : State) : Host.Outcome State Fault Refusal :=
  s.coreStep i (.pnot i pd pa) { run := fun s => s.setPred i.core pd.toNat (!s.predBit i.core pa.toNat) }

/-- PMOV (R134, R137). -/
def execPmov (i : Issue) (pd : BitVec 4) (pa : BitVec 4) (s : State) : Host.Outcome State Fault Refusal :=
  s.coreStep i (.pmov i pd pa) { run := fun s => s.setPred i.core pd.toNat (s.predBit i.core pa.toNat) }

/-- PSET (R134, R137). -/
def execPset (i : Issue) (pd : BitVec 4) (s : State) : Host.Outcome State Fault Refusal :=
  s.coreStep i (.pset i pd) { run := fun s => s.setPred i.core pd.toNat true }

/-- PCLR (R134, R137). -/
def execPclr (i : Issue) (pd : BitVec 4) (s : State) : Host.Outcome State Fault Refusal :=
  s.coreStep i (.pclr i pd) { run := fun s => s.setPred i.core pd.toNat false }

end Sys2Proof.Machine
end

