-- ==== Sys2Proof/Machine/Power.lean ====
section
/-! DEFINITION. Power-up and module reset, the strongroom's samples, clamps and trips, the module arbiter, gating, clocks, the conservators (R483 to R512). -/
namespace Sys2Proof.Machine

/-! ## Power-up and module reset (R484, R497, R504, R508, R509) -/

/-- What a power-on reset of the registrar keeps: the strongroom's store and Moant's active image. -/
def Srm.powerOn (m : Srm) : Srm := { m with testEnable := false, denied := 0 }

/-- STANDBY_POWER_ON: power-on reset; no rail runs, GEN fields are 0, device memory has lost its contents (R367, R504). -/
def execStandbyPowerOn (s : State) : Host.Outcome State Fault Refusal :=
  .next (
    let pwr : Power := { input := false, softStart := false, rails := false, railsUp := [], ready := false, moant := false, perst := s.pwr.perst, inWindow := 0 }
    let s : State := { s with
      mem := [], memPoison := [], ev := {}, cat := {}, srm := s.srm.powerOn, pwr := pwr
      host := { fwActive := s.host.fwActive, fwStaged := s.host.fwStaged, fwImage := s.host.fwImage } }
    let s := s.moduleReset
    { s with pwr := pwr })

/-- INPUT_QUALIFIED: the strongroom's samples show 10 ms in the window and the input, at `mv`, is in it still; the soft start follows (R484). -/
def execInputQualified (now : W64) (mv : Nat) (s : State) : Host.Outcome State Fault Refusal :=
  .next (
    let s := s.advance now
    if s.pwr.standby && decide (10000 ≤ s.pwr.inWindow) && decide (54000 ≤ mv) && decide (mv ≤ 63000) && !s.pwr.softStart then
      { s with pwr := { s.pwr with input := true, softStart := true } }
    else s)

/-- Whether rails may start: no trip, or the loss of the input, once its cause has cleared and 1 s has passed (R497, R509). -/
def State.mayRise (s : State) : Bool :=
  match s.pwr.trip with
  | none => true
  | some (row, v, _) => row == 5 && decide (v < 50000) && s.tripHolds.isNone

/-- RAILS_GOOD: VBUS is good and every rail has started in its order, VCORE at the table voltage of 400 MHz, and a module reset is due (R508, R509). -/
def execRailsGood (s : State) : Host.Outcome State Fault Refusal :=
  .next (
    if s.pwr.standby && s.pwr.input && s.pwr.softStart && !s.pwr.rails && s.mayRise then
      { s with pwr := { s.pwr with rails := true, railsUp := railOrder, armed := true, trip := none } }
    else s)

/-- The module is held in reset. -/
def State.holdReset (s : State) : State :=
  let s := s.moduleReset
  { s with pwr := { s.pwr with resetting := false } }

/-- The host link trains: in Flit Mode, to 64 GT/s and 16 lanes or to a lower rate and width; a partner without Flit Mode gets no link (R460). What the partner offers is left open (log 135). -/
def State.trainHost (s : State) : State :=
  let w := (Config.freeValue s.freeCtr).toNat
  { s with freeCtr := s.freeCtr + 1
           host := { s.host with linkUp := w.testBit 0, linkRate := [32, 16, 8, 4, 2, 1].getD (w / 2 % 8) 32, linkWidth := [16, 8, 4, 2, 1].getD (w / 16 % 8) 16 } }

/-- PERST: asserted, it holds the module in reset and resets the configuration space; deasserted, the host link trains and a module reset is due, or a trip that no longer holds is over (R462, R497, R504, R509). -/
def execPerst (assert : Bool) (s : State) : Host.Outcome State Fault Refusal :=
  .next (
    if assert then
      let s := s.holdReset
      { s with
        host := { s.host with vfs := 0, bar2Pf := 64, bar2Vf := 4, fns := [] }
        pwr := { s.pwr with perst := true } }
    else
    let s := s.trainHost
    if s.tripHolds.isSome then { s with pwr := { s.pwr with perst := false } }
    else { s with pwr := { s.pwr with perst := false, armed := true, trip := none } })

/-- MODULE_RESET_START: a reset that is due starts once the rails are good and PERST# is deasserted (R509). -/
def execModuleResetStart (s : State) : Host.Outcome State Fault Refusal :=
  .next (if s.pwr.armed && s.pwr.rails && !s.pwr.perst && s.pwr.trip.isNone then s.moduleReset else s)

/-- UPE_MEM_STAT.REPAIR_USED of the stacks whose lanes the fuse shadow repairs (R493, R509, R545). -/
def State.repairsUsed (s : State) : List Nat → State
  | [] => s
  | j :: r => (s.raise (.stk (j / 2) (j % 2)) 0x40 4).repairsUsed r

/-- Whether a module reset has come to its last step: the slacks of every region measured and the clocks at their arbitrated steps (R509). -/
def State.resetDone (s : State) : Bool :=
  s.pwr.resetting && s.pwr.rails && !s.pwr.perst && s.pwr.lastArb.isSome && (List.range 8).all (fun d => (tget s.csvs d {}).measured)

/-- MODULE_READY: the reset completes with the stacks initialised, the postmark starts at 0 and the record is raised (R509). -/
def execModuleReady (s : State) : Host.Outcome State Fault Refusal :=
  .next (
    if s.resetDone then
      (({ s with pm := {}, pwr := { s.pwr with resetting := false, ready := true } } : State).repairsUsed s.srm.repairs).event .mpwr 0x20A 0xFF 0 []
    else s)

/-! ## Samples, clamps, trips (R483, R495 to R497) -/

/-- A row of the limits. -/
def State.limit (s : State) (row : Nat) : Nat × Nat := s.srm.limits.getD row (0, 0)

/-- Ls of R487 at an input voltage. -/
def State.ls (s : State) (mv : Nat) : Nat := min (min s.sustained s.pwr.hostLimit) (104 * mv / 1000)

/-- The peak allowance at an input voltage (R5, R483, R487). -/
def State.peakLimit (s : State) (mv : Nat) : Nat := min (s.limit 1).1 (s.srm.current * mv / 1000000)

/-- The input current as stage 1 lets it through: no more than 20 A until the rails are good (R5, R484). -/
def State.stage1 (s : State) (ma : Nat) : Nat := min ma (if s.pwr.rails then s.srm.current else min 20000 s.srm.current)

/-- The hottest stack by the reports of R24. -/
def State.stackHottest (s : State) : Nat := s.pwr.stackTemps.foldl (fun m e => max m e.2) 0

/-- Watts of a sample. -/
def sampleWatts (m : PowerSample) : Nat := m.mv * m.ma / 1000000

/-- The largest of a list. -/
def maxOf (l : List Nat) : Nat := l.foldl max 0

/-- What each row of R495 measures in a sample, after the comparisons' counts have taken it. -/
def State.measured (s : State) (m : PowerSample) (row : Nat) : Nat :=
  match row with
  | 0 => m.ma
  | 1 => sampleWatts m
  | 2 => s.pwr.overFor
  | 3 => s.pwr.mean
  | 4 => maxOf m.regionW
  | 5 => m.mv
  | 6 => m.junction
  | 7 => s.stackHottest
  | 8 => m.regTemp
  | _ => b2n m.refLost

/-- Whether a row is at its clamp level. -/
def State.clampAt (s : State) (m : PowerSample) (row : Nat) : Bool :=
  let v := s.measured m row
  match row with
  | 1 => decide (s.peakLimit m.mv < v)
  | 3 => decide (s.ls m.mv < v)
  | 5 => false
  | 9 => false
  | _ => decide ((s.limit row).1 ≤ v)

/-- Whether a row is at its trip level; a junction only after 1 ms, an input only after 10 us (R483, R495). -/
def State.tripAt (s : State) (m : PowerSample) (row : Nat) : Bool :=
  let v := s.measured m row
  match row with
  | 2 => decide ((s.limit 2).2 ≤ v)
  | 3 => decide (s.ls m.mv + ((s.limit 3).2 - (s.limit 3).1) < v)
  | 5 => decide (10 ≤ s.pwr.lowFor) || decide (10 ≤ s.pwr.highFor)
  | 6 => decide (1000 ≤ s.pwr.hotFor)
  | 7 => decide ((s.limit 7).2 ≤ v)
  | 8 => decide ((s.limit 8).2 ≤ v)
  | 9 => m.refLost
  | _ => false

/-- A count of microseconds while something holds. -/
def runOf (b : Bool) (n : Nat) : Nat := if b then n + 1 else 0

/-- Readings and counts after a sample: means round down over 1,000 and 100,000 samples (log 87). -/
def State.takeSample (s : State) (m : PowerSample) : State :=
  let p := s.pwr
  let window := (sampleWatts m :: p.window).take 100000
  let sum := fun (l : List Nat) => l.foldl (· + ·) 0
  { s with pwr := { p with
      sampled := p.sampled + 1, mv := m.mv, ma := m.ma, window := window
      watts := sum (window.take 1000) / 1000, mean := sum window / 100000
      hottest := max m.junction (max s.stackHottest m.regTemp)
      lowFor := runOf (decide (m.mv < 50000)) p.lowFor, highFor := runOf (decide (65000 < m.mv)) p.highFor
      inWindow := runOf (decide (54000 ≤ m.mv) && decide (m.mv ≤ 63000)) p.inWindow
      overFor := runOf (decide (5600 < sampleWatts m)) p.overFor, hotFor := runOf (decide ((s.limit 6).2 ≤ m.junction)) p.hotFor } }

/-- Whether the cause of a trip still stands in a sample. -/
def State.causeStands (s : State) (m : PowerSample) (row : Nat) : Bool :=
  match row with
  | 5 => decide (m.mv < 50000) || decide (65000 < m.mv)
  | 6 => decide ((s.limit 6).2 ≤ m.junction)
  | _ => s.tripAt m row

/-- PWR_STAT.INPUT_LOW and INPUT_HIGH when the input comes into their bands (R483). -/
def State.inputFlags (s : State) (old mv : Nat) : State :=
  let low := fun v => decide (50000 ≤ v) && decide (v < 54000)
  let high := fun v => decide (63000 < v) && decide (v ≤ 65000)
  let s := if low mv && !low old then s.raise .mpwr 0 0 else s
  if high mv && !high old then s.raise .mpwr 0 1 else s

/-- Operating minutes of the region that has most. -/
def State.opMinutes (s : State) : Nat :=
  maxOf ((List.range 8).map s.opMinutesOf)

/-- A trip: rails off, device memory lost, stacks and shells report nothing, the module held in reset, record 5, the event (R497). -/
def State.trip (s : State) (row value : Nat) : State :=
  let entry : TripEntry := ⟨row, value, s.opMinutes⟩
  let s : State := { s with mem := [], memPoison := [], srm := { s.srm with trips := lastOf 256 (s.srm.trips ++ [entry]), tripCount := (s.srm.tripCount + 1) % 2 ^ 32 } }
  let s := s.holdReset
  let s : State := { s with pwr := { s.pwr with
    rails := false, railsUp := [19], softStart := false, input := s.pwr.input && !(row == 5 && decide (value < 50000))
    trip := some (row, value, s.pwr.sampled), tripStands := true, clamp := none, stackTemps := [], railLog := [] } }
  s.event .srm 0x10A 0xFF 0 (u8 row ++ [0, 0, 0] ++ u32 value)

/-- A clamp: G at least 12 everywhere from now on (R496). -/
def State.clampNow (s : State) (row value : Nat) : State :=
  let fresh := s.pwr.clamp.isNone
  let s : State := { s with pwr := { s.pwr with clamp := some s.pwr.sampled, clampRow := row } }
  if fresh then s.flagEvent .mpwr 0 2 0x208 0xFF (u8 row ++ [0, 0, 0] ++ u32 value) else s

/-- SRM_SAMPLE: one sample of every microsecond (R483, R495). -/
def execSrmSample (m : PowerSample) (s : State) : Host.Outcome State Fault Refusal :=
  .next (
    let s := s.advance m.now
    let m : PowerSample := { m with ma := s.stage1 m.ma }
    let old := s.pwr.mv
    let s := (s.takeSample m).inputFlags old m.mv
    let s : State := match s.pwr.trip with
      | some (row, _, _) => { s with pwr := { s.pwr with tripStands := s.causeStands m row } }
      | none => s
    if !s.pwr.rails then
      (if m.mv < 50000 then { s with pwr := { s.pwr with input := false, softStart := false } } else s)
    else match (List.range 10).find? (s.tripAt m) with
      | some row => s.trip row (s.measured m row)
      | none =>
        match (List.range 10).find? (s.clampAt m) with
        | some row => s.clampNow row (s.measured m row)
        | none => s)

/-- CLAMP_RELEASE: 100 us of samples below every limit (R496). -/
def execClampRelease (now : W64) (s : State) : Host.Outcome State Fault Refusal :=
  .next (
    let s := s.advance now
    match s.pwr.clamp with
    | some t => if t + 100 ≤ s.pwr.sampled then { s with pwr := { s.pwr with clamp := none } } else s
    | none => s)

/-! ## The module arbiter (R487, R491) -/

/-- The thermal cap of a region: none below 100 degrees; beyond 105 the line is not given (log 86). -/
def thermalCap (t free : Nat) : Nat := if t < 100 then 700 else if t ≤ 105 then 560 - 56 * (t - 100) else free % 281

/-- Watts of a rail's reading. -/
def railWatts (r : RailReading) : Nat := r.mv * r.ma / 1000000

/-- P_other of R487: the measured draw of rails 9 to 19 and conversion loss. -/
def otherDraw (m : ArbInput) : Nat := (((m.rails.take 20).drop 9).map railWatts).foldl (· + ·) m.loss

/-- One round of the water-fill: one watt for every region with demand and room, while there is a watt for each. -/
def fillRound (demand cap : List Nat) (g : List Nat × Nat) : List Nat × Nat :=
  let open_ := (List.range 8).filter (fun d => decide (g.1.getD d 0 < demand.getD d 0) && decide (g.1.getD d 0 < cap.getD d 0))
  if open_.isEmpty ∨ g.2 < open_.length then g
  else ((List.range 8).map (fun d => if open_.contains d then g.1.getD d 0 + 1 else g.1.getD d 0), g.2 - open_.length)

/-- Rounds of the water-fill. -/
def waterFill (demand cap : List Nat) : Nat → List Nat × Nat → List Nat × Nat
  | 0, g => g
  | n + 1, g => waterFill demand cap n (fillRound demand cap g)

/-- Grants for a budget `l`. -/
def grantsFor (m : ArbInput) (caps : List Nat) (l : Nat) : List Nat :=
  let floor := caps.map (fun c => min 60 c)
  (waterFill m.demand caps 700 (floor, l - otherDraw m - floor.foldl (· + ·) 0)).1

/-- window_room(): what one more period may draw (R491). -/
def State.windowRoom (s : State) (mv : Nat) : Nat := s.ls mv * 10000 - (s.pwr.periods.take 9999).foldl (· + ·) 0

/-- The caps on a region's step: the conservator's, as applied at the last arbitration, and PWR_RFMAX (R487, R488). -/
def State.stepCap (s : State) (d : Nat) : Nat := min (s.pwr.caps.getD d 56) (s.reg (.rpwr d) 8)

/-- Caps of a period; the frequency cap is the power predicted at the highest step allowed. -/
def State.capsFor (s : State) (m : ArbInput) (peaking : Bool) (free : Nat → Nat) : List Nat :=
  (List.range 8).map (fun d => min (if peaking then 700 else 560) (min (thermalCap (m.junction.getD d 0) (free d)) (Config.predictedPower d (s.stepCap d))))

/-- Whether an excursion may start (R491, R492). -/
def State.mayPeak (s : State) : Bool :=
  s.pwr.clamp.isNone && decide (5600 ≤ s.pwr.hostLimit) &&
    (match s.pwr.lastExcursion with | some t => decide (t + 100000000 ≤ s.pm.ran) | none => true)

/-! ## Rails and the region arbiters (R485, R486, R488 to R490) -/

/-- The margin table a region's arbiter applies, at a step. -/
def State.tableMv (s : State) (d k : Nat) : Nat := (tget s.pwr.tables d (tget s.csvs d {}).table).getD k 0

/-- VCORE of a region now: 5 mV a microsecond towards its target (R486). -/
def State.vcoreNow (s : State) (d : Nat) : Nat :=
  match (s.pwr.vcore.find? (fun e => e.1 == d)).map (·.2) with
  | none => s.tableMv d 0
  | some x =>
    let gone := (s.pm.ran - x.since) * 5 / 1000
    if x.mv ≤ x.target then min x.target (x.mv + gone) else max x.target (x.mv - gone)

/-- The region arbiter sets a VCORE target (R485). -/
def State.setVcore (s : State) (d mv : Nat) : State :=
  { s with pwr := { s.pwr with vcore := tset s.pwr.vcore d ⟨s.vcoreNow d, mv, s.pm.ran⟩ } }

/-- The VCORE target of a region: its rail starts at the table voltage of 400 MHz (R508). -/
def State.vcoreTarget (s : State) (d : Nat) : Nat :=
  match (s.pwr.vcore.find? (fun e => e.1 == d)).map (·.2) with
  | none => s.tableMv d 0
  | some x => x.target

/-- The blocks of a region: its present cores and its two stacks. -/
def State.blocks (s : State) (d : Nat) : List Nat := (List.range 18).filter (fun b => decide (16 ≤ b) || s.siteOf (16 * d + b) != 0xFF)

/-- The cores of a region in low-power wait, whose share is lent (R329). -/
def State.lenders (s : State) (d : Nat) : List Nat :=
  ((List.range 16).map (· + 16 * d)).filter (fun k => (s.core k).waiting.any (fun w => w.lowPower))

/-- A block's demand: its activity; 0 while its share is lent (R329, R488). -/
def State.demandOf (s : State) (d b : Nat) : Nat :=
  if decide (b < 16) && s.pwr.lent.any (fun e => e.1 == 16 * d + b) then 0 else tget s.pwr.activity (d, b) 0

/-- The region's grant split among its blocks: a floor of 4 W and the ramp reserve each, the remainder by demand (R488; log 86). -/
def State.splitGrant (s : State) (d : Nat) : State :=
  let l := s.blocks d
  let floor := 4 + Config.arrayPower
  let rest := s.pwr.grants.getD d 0 - floor * l.length
  let total := (l.map (s.demandOf d)).foldl (· + ·) 0
  let g := fun (b : Nat) => floor + (if total = 0 then 0 else rest * s.demandOf d b / total)
  { s with pwr := { s.pwr with blockGrants := l.foldl (fun t b => tset t (d, b) (g b)) s.pwr.blockGrants } }

/-- An arbitration lends the shares of the cores in low-power wait, keeping the demand each had (R329). -/
def State.lend (s : State) (d : Nat) : State :=
  let kept := fun (k : Nat) => (k, tget s.pwr.lent k (tget s.pwr.activity (d, k % 16) 0))
  { s with pwr := { s.pwr with lent := tdelWhere s.pwr.lent (fun k => regionOf k == d) ++ (s.lenders d).map kept } }

/-- The shares of cores that woke are theirs again: the demand each had when its share was lent counts until its next report (R329). -/
def State.returnShares (s : State) (d : Nat) : State :=
  let woke := s.pwr.lent.filter (fun e => regionOf e.1 == d && !(s.lenders d).contains e.1)
  if woke.isEmpty then s
  else
    ({ s with pwr := { s.pwr with
      lent := tdelWhere s.pwr.lent (fun k => woke.any (fun e => e.1 == k))
      activity := woke.foldl (fun t e => tset t (d, e.1 % 16) (max e.2 (tget t (d, e.1 % 16) 0))) s.pwr.activity } } : State).splitGrant d

/-- The highest step of the margin table within the caps whose predicted power fits the grant (R488). -/
def State.wantedStep (s : State) (d : Nat) : Nat :=
  maxOf ((List.range 57).filter (fun k => decide (k ≤ s.stepCap d) && decide (Config.predictedPower d k ≤ s.pwr.grants.getD d 0)))

/-- A region arbiter's part of a period: the split, the step the clock is to reach, at most 8 from where it stands, and the rail's target: the table voltage of the higher of the two steps, so that a rise waits for its rail, a fall is followed by it, and a new table applies at once (R488, R490, R501). In a module reset the clock and its rail come up at the arbitrated step (R509). -/
def State.planRegion (s : State) (d : Nat) : State :=
  let s := (s.lend d).splitGrant d
  let old := if s.pwr.resetting then s.wantedStep d else s.pwr.steps.getD d 0
  let goal := clampNat (s.wantedStep d) (old - 8) (old + 8)
  let s : State := { s with pwr := { s.pwr with goals := listSet s.pwr.goals d goal, steps := listSet s.pwr.steps d old } }
  let mv := s.tableMv d (max old goal)
  if s.pwr.resetting then { s with pwr := { s.pwr with vcore := tset s.pwr.vcore d ⟨mv, mv, s.pm.ran⟩ } }
  else if s.vcoreTarget d = mv then s else s.setVcore d mv

/-- The plans of several regions. -/
def State.planRegions (s : State) : List Nat → State
  | [] => s
  | d :: r => (s.planRegion d).planRegions r

/-- The conservators' tables and caps apply from this arbitration on (R501); a rail still at the voltage it started at holds that until its target changes (R486). -/
def State.applyTables (s : State) : State :=
  { s with pwr := { s.pwr with
      vcore := (List.range 8).map (fun d => (d, tget s.pwr.vcore d ⟨s.tableMv d 0, s.tableMv d 0, s.pm.ran⟩))
      caps := (List.range 8).map (fun d => (tget s.csvs d {}).cap)
      tables := (List.range 8).map (fun d => (d, (tget s.csvs d {}).table)) } }

/-- The grants of one period; a clamp takes 90% of the measured draw as L (R487, R491, R496). Grants are whole watts (log 86). -/
def State.grant (s : State) (m : ArbInput) : State :=
  let draw := m.mv * s.stage1 m.ma / 1000000
  let s : State := { s with freeCtr := s.freeCtr + 8, pwr := { s.pwr with periods := (draw :: s.pwr.periods).take 10000, lastArb := some s.pm.ran } }
  let free := fun d => (Config.freeValue (s.freeCtr - 8 + d)).toNat
  let ls := s.ls m.mv
  let cut := match s.pwr.excursion with | some t => decide (t + 9000000 ≤ s.pm.ran) | none => false
  let s := if cut then s.raise .mpwr 0 3 else s
  let peaking := s.pwr.clamp.isNone && !cut && (s.pwr.excursion.isSome || s.mayPeak)
  let plan := fun (peak : Bool) =>
    let l := if s.pwr.clamp.isSome then draw * 9 / 10 else if peak then s.peakLimit m.mv else ls
    grantsFor m (s.capsFor m peak free) (min l (s.windowRoom m.mv))
  let total := fun (g : List Nat) => g.foldl (· + ·) 0 + otherDraw m
  if peaking && decide (ls < total (plan true)) then
    let t0 := s.pwr.excursion.getD s.pm.ran
    { s with pwr := { s.pwr with grants := plan true, excursion := some t0, lastExcursion := some t0 } }
  else { s with pwr := { s.pwr with grants := plan false, excursion := none } }

/-- The shells of the rails report while the rails are up; a VCORE rail's voltage is the one its arbiter has brought it to (R485, R486). -/
def State.railReport (s : State) (l : List RailReading) : State :=
  let read := fun (r : Nat) (x : RailReading) => if 1 ≤ r ∧ r ≤ 8 then { x with mv := s.vcoreNow (r - 1) } else x
  if s.pwr.rails then
    { s with pwr := { s.pwr with railAt := s.pwr.sampled, railLog := ((List.zip (List.range l.length) l).map (fun x => read x.1 x.2) :: s.pwr.railLog).take 100 } }
  else s

/-- Whether a new period has begun since the last plan; in a module reset, in which the postmark stands, 10 us by the strongroom's samples (R485, R487). -/
def State.periodDue (s : State) : Bool :=
  if s.pwr.ready then (match s.pwr.lastArb with | some t => decide (t + 10000 ≤ s.pm.ran) | none => true)
  else decide (s.pwr.railAt + 10 ≤ s.pwr.sampled)

/-- Whether the arbiters plan: the module is ready, or its reset has come to its clocks (R487, R509). -/
def State.arbitrates (s : State) : Bool := s.pwr.ready || (s.pwr.resetting && s.pwr.rails && !s.pwr.perst)

/-- MODULE_ARBITRATION: once in every period the shells' reports, the module arbiter's grants and the region arbiters' plans (R485, R487, R488). -/
def execModuleArbitration (m : ArbInput) (s : State) : Host.Outcome State Fault Refusal :=
  .next (
    let s := s.advance m.now
    if !s.periodDue then s
    else
      let s := s.railReport m.rails
      if s.arbitrates then (s.applyTables.grant m).planRegions (List.range 8) else s)

/-! ## Gating and clocks (R489, R490, R503) -/

/-- A block's activity in microwatts: its events of 1 us at their energies (R488, R548). -/
def State.activityOf (s : State) (d : Nat) (events : List Nat) : Nat :=
  ((List.range 32).map (fun e => events.getD e 0 * (s.reg (.csvCal d) (0x100 + 4 * e) % 65536))).foldl (· + ·) 0

/-- BLOCK_GATING: the shares of cores that woke are returned first; a block whose activity estimate exceeds its grant is gated in at least one cycle of 16, any other is not (R329, R489). -/
def execBlockGating (d : Fin 8) (b : Fin 18) (now : W64) (events : List Nat) (g : BitVec 4) (s : State) : Host.Outcome State Fault Refusal :=
  .next (
    let s := s.advance now
    let d := d.val
    let b := b.val
    if !s.pwr.ready then s
    else
      let e := s.activityOf d events
      let s := s.returnShares d
      let s : State := { s with pwr := { s.pwr with activity := tset s.pwr.activity (d, b) e } }
      { s with pwr := { s.pwr with gates := tset s.pwr.gates (d, b) (if tget s.pwr.blockGrants (d, b) 0 * 1000000 < e then max 1 g.toNat else 0) } })

/-- REGION_CLOCK_CHANGE: the clock takes the step of this period's plan, a rise once the rail has its voltage; after a fall the rail follows (R490). -/
def execRegionClockChange (d : Fin 8) (step : Fin 57) (now : W64) (s : State) : Host.Outcome State Fault Refusal :=
  .next (
    let s := s.advance now
    let d := d.val
    let old := s.pwr.steps.getD d 0
    let goal := s.pwr.goals.getD d 0
    if s.pwr.ready && !(s.region d).clockLost && step.val == goal && goal != old && (decide (goal < old) || decide (s.tableMv d goal ≤ s.vcoreNow d)) then
      let s : State := { s with
        pwr := { s.pwr with steps := listSet s.pwr.steps d goal }
        csvs := tmod s.csvs d {} (fun x => { x with stepSince := s.pm.ran }) }
      if goal < old then s.setVcore d (s.tableMv d goal) else s
    else s)

/-- CLOCK_LOST: the region does not operate and is held in reset and quarantined until REGION_RESET (R35, R503). -/
def execClockLost (d : Fin 8) (s : State) : Host.Outcome State Fault Refusal :=
  .next (
    let d := d.val
    if !s.pwr.ready || (s.region d).clockLost then s
    else
      let s := s.regionReset d
      let s := (s.setRegion d { s.region d with clockLost := true }).event (.evt d) 0x10B 0xFF 0 []
      let s : State := { s with csvs := tmod s.csvs d {} (fun x => { x with stopped := some s.pm.ran }) }
      s.quarantine d 1)

/-! ## The conservators (R500 to R502) -/

/-- SLACK_MEASUREMENT_DONE: in a module reset its first measurement (R509); else the clock step has held for 100 us and the 50 us of the measurement. A slack is an added delay, in steps of 2 ps; a frozen conservator measures nothing (R61); a low margin asks for a re-plan at once (R500, R501). -/
def execSlackMeasurementDone (d : Fin 8) (now : W64) (slacks : List (BitVec 10)) (s : State) : Host.Outcome State Fault Refusal :=
  .next (
    let s := s.advance now
    let d := d.val
    let x := tget s.csvs d {}
    let first := s.pwr.resetting && s.pwr.rails && s.pwr.perst == false
    if !(s.pwr.ready || first) || (s.region d).clockLost || s.frozen (.csv d) || (!first && decide (s.pm.ran < x.stepSince + 150000)) then s
    else
      let table := (List.range 17).map (fun i => (i, if (s.region d).active.testBit i then (slacks.getD i 0x3FF).toNat / 2 * 2 else 0x3FF))
      ({ s with csvs := tset s.csvs d { x with slacks := table, measured := true } } : State).marginCheck d)

/-- ceil(D × SENS_k) in mV (R501). -/
def csvRise (t d k drift : Nat) : Nat :=
  let x := Config.csvSens t d k
  (drift * x.1 + x.2) / (x.2 + 1)

/-- The margin table for a drift and a guard band, from reference tables `t` (R501). -/
def marginTable (t d drift guard_ : Nat) : List Nat := (List.range 57).map (fun k => Config.csvV0 t d k + csvRise t d k drift + guard_)

/-- The highest step whose voltage does not exceed 0.95 V; with none, step 0 (log 70). -/
def capOf (table : List Nat) : Nat := maxOf ((List.range 57).filter (fun k => decide (table.getD k 0 ≤ 950)))

/-- The daily history with an entry: one a day, the last 8,192 (R502). -/
def dailyWith (l : List LedgerEntry) (e : LedgerEntry) : List LedgerEntry :=
  match l.getLast? with
  | some p => lastOf 8192 (if p.minutes / 1440 = e.minutes / 1440 then l.dropLast ++ [e] else l ++ [e])
  | none => [e]

/-- The re-plan of a region from its measured slacks. -/
def State.replan (s : State) (d : Nat) : State :=
  let x := tget s.csvs d {}
  let w := s.worstSlack d
  let t := s.srm.shadow.tables
  let drift := Config.csvRef t d - w.1
  let guard_ := s.reg (.csvCal d) 0 % 256
  let table := marginTable t d drift guard_
  let cap := capOf table
  let minutes := s.opMinutesOf d
  let entry : LedgerEntry := ⟨minutes, w.1, w.2, drift, csvRise t d cap drift + guard_, cap⟩
  let s : State := { s with
    csvs := tset s.csvs d { x with table := table, cap := cap, drift := drift, lastPlan := s.operated d, request := false, measured := false }
    srm := { s.srm with ledger := tset s.srm.ledger d entry, daily := tmod s.srm.daily d [] (fun l => dailyWith l entry) } }
  let s := s.raise (.csv d) 0 1
  if cap < x.cap then s.raise (.csv d) 0 2 else s

/-- CONSERVATOR_REPLAN: after 10 minutes of operation or on request, from a measurement at a stable clock; a frozen conservator plans nothing (R61). -/
def execConservatorReplan (d : Fin 8) (now : W64) (s : State) : Host.Outcome State Fault Refusal :=
  .next (
    let s := s.advance now
    let d := d.val
    let x := tget s.csvs d {}
    let due := x.request || decide (x.lastPlan + 600000000000 ≤ s.operated d)
    if s.pwr.ready && !(s.region d).clockLost && !s.frozen (.csv d) && x.measured && due then s.replan d else s)

/-- CSV_REPLAN_REQUEST: a write of 1 to CSV_CTRL. -/
def execCsvReplanRequest (ag : Agent) (d : Fin 8) (s : State) : Host.Outcome State Fault Refusal :=
  .next (s.write ag (regionBase d + 0xE04004) 1)

end Sys2Proof.Machine
end

