-- ==== Sys2Proof/Machine/RegisterRows.lean ====
section
/-! DEFINITION. Register accesses as commands, and the rows of the exception chapter that no instruction carries (R46 to R72, R109, R150, R223, R235, R349 to R351, R355, R381, R382, R389, R494, R529, R535). -/
namespace Sys2Proof.Machine

/-! ## Causes -/

/-- INT_TIMER (R349, R381): the postmark reaches `now`; the cause is pending while the region's copy is at least CORE_TIMECMP. -/
def execIntTimer (_k : Fin 128) (now : W64) (s : State) : Host.Outcome State Fault Refusal := .next (s.advance now)

/-- CAUSE_ENTRY (R351 items 1 and 2, R355): the core takes what its boundary takes. -/
def execCauseEntry (k : Fin 128) (s : State) : Host.Outcome State Fault Refusal :=
  .next (if s.atBoundary k.val then (s.takeBoundary k.val k.isLt).getD s else s)

/-- Where an agent finds a register of a control unit frame: a virtual function sees it in its core window (R464, R538). -/
def State.cuAddress (s : State) (ag : Agent) (k off : Nat) : Nat :=
  match ag with
  | .host fn => if fn.val = 0 then s.bar0 (.cu k) + off else 0x100000 + 0x4000 * k + off
  | _ => s.bar0 (.cu k) + off

/-- CORE_DOORBELL (R382). -/
def execCoreDoorbell (ag : Agent) (k : Fin 128) (v : W32) (s : State) : Host.Outcome State Fault Refusal :=
  .next (s.write ag (s.cuAddress ag k.val 0x538) v.toNat)

/-- INT_MGMT (R349): pending until it is taken. -/
def execIntMgmt (k : Fin 128) (s : State) : Host.Outcome State Fault Refusal :=
  .next (if s.siteOf k.val = 0xFF then s else s.pendCause k.val { code := 34 })

/-- RESERVED_OPCODE (R150, R238, R351, R356): an undefined word comes to issue. Its guard does not protect it (R132). -/
def execReservedOpcode (k : Fin 128) (w0 w1 w2 w3 : W32) (s : State) : Host.Outcome State Fault Refusal :=
  .next (
    let placed := (s.core k.val).pc.toNat % 16 == 0
    if !s.atBoundary k.val || (decodeCore k placed w0 w1 w2 w3).isSome then s
    else match s.takeBoundary k.val k.isLt with
      | some s' => s'
      | none =>
        if (s.core k.val).tileHold && !s.tilesQuiet k.val then s
        else s.reservedFault k.val k.isLt w0 (if isLeader w0 && placed then 16 else 4))

/-! ## Register accesses -/

/-- PLAIN_REGISTER_WRITE (R46, R49, R67). -/
def execPlainRegisterWrite (ag : Agent) (a : RegAt) (v : W32) (s : State) : Host.Outcome State Fault Refusal :=
  .next (s.writeSized ag (atView a.off.toNat 0) a.size v.toNat)
/-- SET_ALIAS_WRITE (R46, R48, R49). -/
def execSetAliasWrite (ag : Agent) (a : RegAt) (v : W32) (s : State) : Host.Outcome State Fault Refusal :=
  .next (s.writeSized ag (atView a.off.toNat 1) a.size v.toNat)
/-- CLEAR_ALIAS_WRITE (R46, R48, R49). -/
def execClearAliasWrite (ag : Agent) (a : RegAt) (v : W32) (s : State) : Host.Outcome State Fault Refusal :=
  .next (s.writeSized ag (atView a.off.toNat 2) a.size v.toNat)
/-- TOGGLE_ALIAS_WRITE (R46, R48, R49). -/
def execToggleAliasWrite (ag : Agent) (a : RegAt) (v : W32) (s : State) : Host.Outcome State Fault Refusal :=
  .next (s.writeSized ag (atView a.off.toNat 3) a.size v.toNat)
/-- STATUS_REGISTER_WRITE (R56). -/
def execStatusRegisterWrite (ag : Agent) (off : BitVec 28) (v : W32) (s : State) : Host.Outcome State Fault Refusal :=
  .next (s.write ag (atView off.toNat 0) v.toNat)
/-- CAPTURING_LOW_READ (R49, R50). -/
def execCapturingLowRead (ag : Agent) (a : RegAt) (s : State) : Host.Outcome State Fault Refusal := .next (s.readSized ag a.off.toNat a.size)
/-- COUNTER_WRITE (R235). -/
def execCounterWrite (ag : Agent) (off : BitVec 28) (v : W32) (s : State) : Host.Outcome State Fault Refusal :=
  .next (s.write ag (atView off.toNat 0) v.toNat)
/-- POWERED_DOWN_TIMEOUT (R71): what the access meets 10 us after it was issued: a bus error, or the register when its domain has powered up. -/
def execPoweredDownTimeout (ag : Agent) (off : BitVec 28) (wr : Option W32) (s : State) : Host.Outcome State Fault Refusal :=
  .next (match wr with
    | some v => s.write ag off.toNat v.toNat
    | none => s.read ag off.toNat)

/-- PARITY_SCRUB (R59, R60): the scrubber visits the register at a BAR0 offset. -/
def execParityScrub (off : BitVec 28) (s : State) : Host.Outcome State Fault Refusal :=
  .next (match s.target .mgmt (atView off.toNat 0) false with
    | .frame f o _ => if setHas (s.frame f).badParity o then s.parityFound f o else s
    | _ => s)

/-- PARITY_MISMATCH_READ (R59, R60): a read that may find a mismatch. -/
def execParityMismatchRead (ag : Agent) (off : BitVec 28) (s : State) : Host.Outcome State Fault Refusal := .next (s.read ag off.toNat)

/-- FOLD_SEED_WRITE (R109). -/
def execFoldSeedWrite (ag : Agent) (k : Fin 128) (v : W32) (s : State) : Host.Outcome State Fault Refusal :=
  .next (s.write ag (s.cuAddress ag k.val 0x210) v.toNat)
/-- ARRAY_RAMP_WRITE (R223, R232). -/
def execArrayRampWrite (ag : Agent) (k : Fin 128) (a : BitVec 2) (v : W32) (s : State) : Host.Outcome State Fault Refusal :=
  .next (s.write ag (s.bar0 (.tcu k.val a.toNat) + 4) v.toNat)
/-- PTB_FLIP_GO (R529). -/
def execPtbFlipGo (ag : Agent) (d : Fin 8) (v : W32) (s : State) : Host.Outcome State Fault Refusal :=
  .next (s.write ag (s.bar0 (.ptb d.val) + 0x20) v.toNat)
/-- STRONGROOM_WRITE (R494). -/
def execStrongroomWrite (ag : Agent) (off : BitVec 28) (v : W32) (s : State) : Host.Outcome State Fault Refusal :=
  .next (s.write ag off.toNat v.toNat)
/-- UPE_RING_ENABLE_WRITE (R389). -/
def execUpeRingEnableWrite (ag : Agent) (e : Fin 16) (c : Fin 64) (v : W32) (s : State) : Host.Outcome State Fault Refusal :=
  .next (s.write ag (s.bar0 (.upe (e.val / 2) (e.val % 2)) + 0x408 + 16 * c.val) v.toNat)
/-- EVT_RING_ENABLE_WRITE (R535). -/
def execEvtRingEnableWrite (ag : Agent) (f : Fin 64) (v : W32) (s : State) : Host.Outcome State Fault Refusal :=
  .next (s.write ag (s.bar0 .revt + 0x108 + 16 * f.val) v.toNat)

end Sys2Proof.Machine
end

