-- ==== Sys2Proof/Machine/ScalarFloat.lean ====
section
/-! DEFINITION. Scalar floating point (R112, R139, R169): results round under R91, flags go to CORE_NUMFLAGS, and the result's four poison bits are set when any operand carries one. -/
namespace Sys2Proof.Machine

/-- Whether any of the top `n` slots carries poison (R169). -/
def State.anyPoison (s : State) (k n : Nat) : Bool := (List.range n).any (fun j => (s.vtop k j).poison != 0)

/-- A result slot of an instruction that is not element-wise: all quarters poisoned or none (R169). -/
def resultSlot (w v : Nat) (poison : Bool) : VSlot := ⟨BitVec.ofNat 8192 (v % 2 ^ w), if poison then 15 else 0⟩

/-- A scalar instruction with `n` operands: `f` receives them, the deepest first. -/
def scalarOp (i : Issue) (wd : FloatWidth) (n : Nat) (f : List Nat → FRes) : CoreOp :=
  { vpop := n, vpush := 1
    run := fun s =>
      let k := i.core.val
      let pc := (s.core k).pc
      let r := f ((List.range n).reverse.map (fun j => s.scalar k j (widthOf wd)))
      let p := s.anyPoison k n
      (((s.vpop k n).vpush k (resultSlot (widthOf wd) r.v p))).raiseArith k pc r.fl }

/-- Operand `j` of a list. -/
def arg (l : List Nat) (j : Nat) : Nat := l.getD j 0

/-- POISON_USE when a poisoned operand reaches the integer stack or a predicate (R169). -/
def State.poisonUse (s : State) (k n : Nat) : List Cause := if s.anyPoison k n then [{ code := 8 }] else []

/-- FADD: x + y (R139). -/
def execFadd (i : Issue) (wd : FloatWidth) (s : State) : Host.Outcome State Fault Refusal :=
  s.coreStep i (.fadd i wd) (scalarOp i wd 2 (fun l => (fmtOf wd).add (arg l 0) (arg l 1)))

/-- FSUB: x - y (R139). -/
def execFsub (i : Issue) (wd : FloatWidth) (s : State) : Host.Outcome State Fault Refusal :=
  s.coreStep i (.fsub i wd) (scalarOp i wd 2 (fun l => (fmtOf wd).sub (arg l 0) (arg l 1)))

/-- FMUL (R139). -/
def execFmul (i : Issue) (wd : FloatWidth) (s : State) : Host.Outcome State Fault Refusal :=
  s.coreStep i (.fmul i wd) (scalarOp i wd 2 (fun l => (fmtOf wd).mul (arg l 0) (arg l 1)))

/-- FDIV (R139). -/
def execFdiv (i : Issue) (wd : FloatWidth) (s : State) : Host.Outcome State Fault Refusal :=
  s.coreStep i (.fdiv i wd) (scalarOp i wd 2 (fun l => (fmtOf wd).div (arg l 0) (arg l 1)))

/-- FFMA: x y + z with one rounding (R139). -/
def execFfma (i : Issue) (wd : FloatWidth) (s : State) : Host.Outcome State Fault Refusal :=
  s.coreStep i (.ffma i wd) (scalarOp i wd 3 (fun l => (fmtOf wd).fma (arg l 0) (arg l 1) (arg l 2)))

/-- FSQRT (R139). -/
def execFsqrt (i : Issue) (wd : FloatWidth) (s : State) : Host.Outcome State Fault Refusal :=
  s.coreStep i (.fsqrt i wd) (scalarOp i wd 1 (fun l => (fmtOf wd).sqrt (arg l 0)))

/-- FMIN: minimumNumber, -0 below +0 (R139). -/
def execFmin (i : Issue) (wd : FloatWidth) (s : State) : Host.Outcome State Fault Refusal :=
  s.coreStep i (.fmin i wd) (scalarOp i wd 2 (fun l => (fmtOf wd).minMax false (arg l 0) (arg l 1)))

/-- FMAX: maximumNumber (R139). -/
def execFmax (i : Issue) (wd : FloatWidth) (s : State) : Host.Outcome State Fault Refusal :=
  s.coreStep i (.fmax i wd) (scalarOp i wd 2 (fun l => (fmtOf wd).minMax true (arg l 0) (arg l 1)))

/-- FNEG: the sign bit only (R139). -/
def execFneg (i : Issue) (wd : FloatWidth) (s : State) : Host.Outcome State Fault Refusal :=
  s.coreStep i (.fneg i wd) (scalarOp i wd 1 (fun l => ⟨(fmtOf wd).negBits (arg l 0), 0⟩))

/-- FABS: the sign bit only (R139). -/
def execFabs (i : Issue) (wd : FloatWidth) (s : State) : Host.Outcome State Fault Refusal :=
  s.coreStep i (.fabs i wd) (scalarOp i wd 1 (fun l => ⟨arg l 0 % (fmtOf wd).signBit, 0⟩))

/-- FCMP (R139): Pt = (x cc y); codes 8 to 15 are reserved. -/
def execFcmp (i : Issue) (wd : FloatWidth) (cc pt : BitVec 4) (s : State) : Host.Outcome State Fault Refusal :=
  let k := i.core.val
  s.coreStep i (.fcmp i wd cc pt)
    { vpop := 2, reserved := decide (8 ≤ cc.toNat)
      faults := fun s => s.poisonUse k 2
      run := fun s =>
        let pc := (s.core k).pc
        let (b, fl) := (fmtOf wd).cmp cc.toNat (s.scalar k 1 (widthOf wd)) (s.scalar k 0 (widthOf wd))
        ((s.vpop k 2).setPred k pt.toNat b).raiseArith k pc fl }

/-- CVTIF (R139): a signed 64-bit integer to a float. -/
def execCvtif (i : Issue) (wd : FloatWidth) (s : State) : Host.Outcome State Fault Refusal :=
  let k := i.core.val
  s.coreStep i (.cvtif i wd)
    { ipop := 1, vpush := 1
      run := fun s =>
        let pc := (s.core k).pc
        let r := (fmtOf wd).ofInt (s.itop k 0).toInt
        ((s.ipop k 1).vpush k (resultSlot (widthOf wd) r.v false)).raiseArith k pc r.fl }

/-- CVTFI (R89, R139): a float to a signed 64-bit integer. -/
def execCvtfi (i : Issue) (wd : FloatWidth) (s : State) : Host.Outcome State Fault Refusal :=
  let k := i.core.val
  s.coreStep i (.cvtfi i wd)
    { vpop := 1, ipush := 1
      faults := fun s => s.poisonUse k 1
      run := fun s =>
        let pc := (s.core k).pc
        let (v, fl) := (fmtOf wd).toInt 64 (s.scalar k 0 (widthOf wd))
        ((s.vpop k 1).ipush k (BitVec.ofInt 64 v)).raiseArith k pc fl }

/-- CVTFF (R139): .F32 takes binary64 to binary32, .F64 binary32 to binary64. -/
def execCvtff (i : Issue) (wd : FloatWidth) (s : State) : Host.Outcome State Fault Refusal :=
  let k := i.core.val
  let src : FloatWidth := match wd with | .f32 => .f64 | .f64 => .f32
  s.coreStep i (.cvtff i wd)
    { vpop := 1, vpush := 1
      run := fun s =>
        let pc := (s.core k).pc
        let r := cvtFmt (fmtOf src) (fmtOf wd) (s.scalar k 0 (widthOf src))
        let p := s.anyPoison k 1
        ((s.vpop k 1).vpush k (resultSlot (widthOf wd) r.v p)).raiseArith k pc r.fl }

/-- FMOVI (R139): the bits of an entry. -/
def execFmovi (i : Issue) (wd : FloatWidth) (s : State) : Host.Outcome State Fault Refusal :=
  let k := i.core.val
  s.coreStep i (.fmovi i wd)
    { ipop := 1, vpush := 1, run := fun s => (s.ipop k 1).vpush k (resultSlot (widthOf wd) (s.itop k 0).toNat false) }

/-- IMOVF (R139): the bits of a scalar, zero-extended. -/
def execImovf (i : Issue) (wd : FloatWidth) (s : State) : Host.Outcome State Fault Refusal :=
  let k := i.core.val
  s.coreStep i (.imovf i wd)
    { vpop := 1, ipush := 1
      faults := fun s => s.poisonUse k 1
      run := fun s => (s.vpop k 1).ipush k (BitVec.ofNat 64 (s.scalar k 0 (widthOf wd))) }

end Sys2Proof.Machine
end

