-- ==== Sys2Proof/Machine/TileEvents.lean ====
section
/-! DEFINITION. The events of the matrix arrays, each in an array-local cycle (R102, R199, R200, R209, R211, R212, R219 to R222; logs 3, 8). -/
namespace Sys2Proof.Machine

/-- Array `a` of core `k` comes to phase `p` of local cycle `c`; an absent core has no arrays. -/
def State.arrayEvent (s : State) (k : Fin 128) (a : BitVec 2) (c p : Nat) : State :=
  if s.pwr.ready && s.siteOf k.val != 0xFF then s.tileEvent k.val a.toNat c p else s

/-- ARRAY_ISSUE (R199, R200): the head of the command queue issues once its conditions hold. -/
def execArrayIssue (k : Fin 128) (a : BitVec 2) (cyc : Nat) (s : State) : Host.Outcome State Fault Refusal := .next (s.arrayEvent k a cyc 3)

/-- RAMP_STEP_END (R220, R222, R223). -/
def execRampStepEnd (k : Fin 128) (a : BitVec 2) (cyc : Nat) (s : State) : Host.Outcome State Fault Refusal := .next (s.arrayEvent k a cyc 9)

/-- ARRAY_WIND_DOWN (R221): it changes no timing and no result. -/
def execArrayWindDown (k : Fin 128) (a : BitVec 2) (cyc : Nat) (s : State) : Host.Outcome State Fault Refusal := .next (s.arrayEvent k a cyc 10)

/-- TILE_ROW_POP (R211, R212, R222): the feeder pops a row or admits a bubble. -/
def execTileRowPop (k : Fin 128) (a : BitVec 2) (cyc : Nat) (s : State) : Host.Outcome State Fault Refusal := .next (s.arrayEvent k a cyc 4)

/-- ACCUMULATE_ROW_WRITE (R80, R209, R213). -/
def execAccumulateRowWrite (k : Fin 128) (a : BitVec 2) (cyc : Nat) (s : State) : Host.Outcome State Fault Refusal := .next (s.arrayEvent k a cyc 6)

/-- TDRAIN_COMPLETE (R102): the drain completes and updates its scale record. -/
def execTdrainComplete (k : Fin 128) (a : BitVec 2) (cyc : Nat) (s : State) : Host.Outcome State Fault Refusal := .next (s.arrayEvent k a cyc 8)

/-- DRAIN_ENTRY_PUSH (R219): an entry leaves the de-skew buffer. -/
def execDrainEntryPush (k : Fin 128) (a : BitVec 2) (cyc : Nat) (s : State) : Host.Outcome State Fault Refusal := .next (s.arrayEvent k a cyc 1)

end Sys2Proof.Machine
end

