-- ==== Sys2Proof/Machine/Vector.lean ====
section
/-! DEFINITION. Long vectors: length, lanes, conversions, lane arithmetic, reductions and movement (R152 to R156, R160 to R164, R169). -/
namespace Sys2Proof.Machine

/-! ## Lanes -/

/-- Lane `l` of width `w` bits (R152). -/
def lane (w v l : Nat) : Nat := bits v (w * l) w

/-- Lanes of width `w` in a slot. -/
def laneCount (w : Nat) : Nat := 8192 / w

/-- Active lanes of a result with lane offset `o` (R155). -/
def State.activeLanes (s : State) (k w o : Nat) : Nat := min (laneCount w) (s.vlen k - o)

/-- The lanes `f` computes for the first `n` lanes, every other lane +0, and every flag any of them raises (R156, R164). -/
def lanesOf (w n : Nat) (f : Nat → FRes) : FRes :=
  let rs := (List.range n).map f
  ⟨packWords w (rs.map (·.v)), rs.foldl (fun a r => a ||| r.fl) 0⟩

/-- Poison of an element-wise result with no lane offset: quarter by quarter (R169). -/
def State.quarterPoison (s : State) (k n : Nat) : BitVec 4 := (List.range n).foldl (fun p j => p ||| (s.vtop k j).poison) 0

/-- The bits of slot `n` from the top. -/
def State.slotBits (s : State) (k n : Nat) : Nat := (s.vtop k n).v.toNat

/-- Push a result, and raise its flags for the instruction at `pc`. -/
def State.vresult (s : State) (k : Nat) (pc : W64) (r : FRes) (p : BitVec 4) : State :=
  (s.vpush k ⟨BitVec.ofNat 8192 r.v, p⟩).raiseArith k pc r.fl

/-- An element-wise instruction of `n` operands in lanes of `w` bits: `f` receives the lanes of the operands, the deepest first (R156). -/
def elemOp (i : Issue) (w n : Nat) (f : List Nat → FRes) : CoreOp :=
  { vpop := n, vpush := 1
    run := fun s =>
      let k := i.core.val
      let ops := (List.range n).reverse.map (fun j => s.slotBits k j)
      let r := lanesOf w (s.activeLanes k w 0) (fun l => f (ops.map (fun v => lane w v l)))
      (s.vpop k n).vresult k (s.core k).pc r (s.quarterPoison k n) }

/-- All four quarters poisoned, or none (R169). -/
def allPoison (b : Bool) : BitVec 4 := if b then 15 else 0

/-- A conversion of `n` operands to lanes of `w` bits with lane offset `o`: `f` receives the operands, the deepest first, and the lane (R161, R169). -/
def convOp (i : Issue) (w o n : Nat) (f : List Nat → Nat → FRes) : CoreOp :=
  { vpop := n, vpush := 1
    run := fun s =>
      let k := i.core.val
      let ops := (List.range n).reverse.map (fun j => s.slotBits k j)
      let r := lanesOf w (s.activeLanes k w o) (f ops)
      (s.vpop k n).vresult k (s.core k).pc r (allPoison (s.anyPoison k n)) }

/-! ## Lane operations by format (R163) -/

/-- Lane add (R163, R93). -/
def laneAdd (f : LaneFormat) (x y : Nat) : FRes :=
  match f with
  | .f32 => fmt32.add x y
  | .f64 => fmt64.add x y
  | .k16 => kAdd x y

/-- Lane sub (R163, R93). -/
def laneSub (f : LaneFormat) (x y : Nat) : FRes :=
  match f with
  | .f32 => fmt32.sub x y
  | .f64 => fmt64.sub x y
  | .k16 => kSub x y

/-- Lane mul (R163, R93). -/
def laneMul (f : LaneFormat) (x y : Nat) : FRes :=
  match f with
  | .f32 => fmt32.mul x y
  | .f64 => fmt64.mul x y
  | .k16 => kMul x y

/-- Lane div (R163, R93). -/
def laneDiv (f : LaneFormat) (x y : Nat) : FRes :=
  match f with
  | .f32 => fmt32.div x y
  | .f64 => fmt64.div x y
  | .k16 => kDiv x y

/-- Lane fma (R163, R93). -/
def laneFma (f : LaneFormat) (x y z : Nat) : FRes :=
  match f with
  | .f32 => fmt32.fma x y z
  | .f64 => fmt64.fma x y z
  | .k16 => kFma x y z

/-- Lane sqrt (R163, R93). -/
def laneSqrt (f : LaneFormat) (x : Nat) : FRes :=
  match f with
  | .f32 => fmt32.sqrt x
  | .f64 => fmt64.sqrt x
  | .k16 => kSqrt x

/-- Lane minimum or maximum (R77, R139). -/
def laneMinMax (f : LaneFormat) (isMax : Bool) (x y : Nat) : FRes :=
  match f with
  | .f32 => fmt32.minMax isMax x y
  | .f64 => fmt64.minMax isMax x y
  | .k16 => kMinMax isMax x y

/-- The lane with its sign bit flipped. -/
def laneNeg (f : LaneFormat) (x : Nat) : Nat := x ^^^ 2 ^ (laneBits f - 1)
/-- The lane without its sign bit. -/
def laneAbs (f : LaneFormat) (x : Nat) : Nat := x % 2 ^ (laneBits f - 1)
/-- The format a scalar of a K16 instruction travels in (R162): its width on the V-stack. -/
def scalarBits (f : LaneFormat) : Nat := match f with | .f32 => 32 | .f64 => 64 | .k16 => 32
/-- A scalar result of a lane format: K16 is widened exactly to binary32 (R162). -/
def toScalar (f : LaneFormat) (x : Nat) : Nat := match f with | .k16 => (fmt32.ofK 0 x).v | _ => x
/-- A scalar operand as a lane: binary32 is converted to K16 by R92 with SE 0 (R162). -/
def ofScalar (f : LaneFormat) (x : Nat) : FRes := match f with | .k16 => fmt32.toK 10 0 x | _ => ⟨x, 0⟩
/-- The value `n` in a lane (R162 VIOTA). -/
def laneOfNat (f : LaneFormat) (n : Nat) : Nat :=
  match f with
  | .f32 => (fmt32.ofInt n).v
  | .f64 => (fmt64.ofInt n).v
  | .k16 => (kOfInt n 0 false).v

/-! ## Reductions (R162, R163) -/

/-- A reduction: `f` receives the active lanes, the result is a scalar of `sw` bits (R162, R163). -/
def reduceOp (i : Issue) (w sw : Nat) (f : List Nat → FRes) : CoreOp :=
  { vpop := 1, vpush := 1
    run := fun s =>
      let k := i.core.val
      let r := f ((List.range (s.activeLanes k w 0)).map (fun l => lane w (s.slotBits k 0) l))
      (s.vpop k 1).vresult k (s.core k).pc ⟨r.v % 2 ^ sw, r.fl⟩ (allPoison (s.anyPoison k 1)) }

/-! ## Length and set-up (R161) -/

/-- VSETVL (R161): VLEN = min(n, 512), pushed. -/
def execVsetvl (i : Issue) (s : State) : Host.Outcome State Fault Refusal :=
  let k := i.core.val
  s.coreStep i (.vsetvl i)
    { ipop := 1, ipush := 1
      run := fun s =>
        let n := min (s.itop k 0).toNat 512
        ((s.ipop k 1).setReg (.cu k) 0x230 n).ipush k (BitVec.ofNat 64 n) }

/-- VGETVL (R161): pushes VLEN. -/
def execVgetvl (i : Issue) (s : State) : Host.Outcome State Fault Refusal :=
  s.coreStep i (.vgetvl i) (int0 i (fun s => BitVec.ofNat 64 (s.vlen i.core.val)))

/-- VZERO (R161): pushes an all-zero slot. -/
def execVzero (i : Issue) (s : State) : Host.Outcome State Fault Refusal :=
  s.coreStep i (.vzero i) { vpush := 1, run := fun s => s.vpush i.core.val zeroSlot }

/-! ## Conversions (R161, R89, R92, R93) -/

/-- VCVT.F32.K16.LO: x lane l = k lane l widened with SE. -/
def execVcvtF32K16Lo (i : Issue) (se : BitVec 8) (s : State) : Host.Outcome State Fault Refusal :=
  s.coreStep i (.vcvtF32K16Lo i se) (convOp i 32 0 1 (fun l j => fmt32.ofK se.toInt (lane 16 (arg l 0) j)))

/-- VCVT.F32.K16.HI: from k lane 256 + l; the lane offset is 256. -/
def execVcvtF32K16Hi (i : Issue) (se : BitVec 8) (s : State) : Host.Outcome State Fault Refusal :=
  s.coreStep i (.vcvtF32K16Hi i se) (convOp i 32 256 1 (fun l j => fmt32.ofK se.toInt (lane 16 (arg l 0) (256 + j))))

/-- VCVT.K16.F32: k lane l from x below 256, from y at and above. -/
def execVcvtK16F32 (i : Issue) (se : BitVec 8) (s : State) : Host.Outcome State Fault Refusal :=
  s.coreStep i (.vcvtK16F32 i se) (convOp i 16 0 2 (fun l j =>
    fmt32.toK 10 se.toInt (if j < 256 then lane 32 (arg l 0) j else lane 32 (arg l 1) (j - 256))))

/-- VCVT.F64.F32.LO: d lane l = x lane l. -/
def execVcvtF64F32Lo (i : Issue) (s : State) : Host.Outcome State Fault Refusal :=
  s.coreStep i (.vcvtF64F32Lo i) (convOp i 64 0 1 (fun l j => cvtFmt fmt32 fmt64 (lane 32 (arg l 0) j)))

/-- VCVT.F64.F32.HI: from x lane 128 + l; the lane offset is 128. -/
def execVcvtF64F32Hi (i : Issue) (s : State) : Host.Outcome State Fault Refusal :=
  s.coreStep i (.vcvtF64F32Hi i) (convOp i 64 128 1 (fun l j => cvtFmt fmt32 fmt64 (lane 32 (arg l 0) (128 + j))))

/-- VCVT.F32.F64: x lane l from d below 128, from e at and above. -/
def execVcvtF32F64 (i : Issue) (s : State) : Host.Outcome State Fault Refusal :=
  s.coreStep i (.vcvtF32F64 i) (convOp i 32 0 2 (fun l j =>
    cvtFmt fmt64 fmt32 (if j < 128 then lane 64 (arg l 0) j else lane 64 (arg l 1) (j - 128))))

/-- VCVT.I32.F32: to signed 32-bit lanes (R89). -/
def execVcvtI32F32 (i : Issue) (s : State) : Host.Outcome State Fault Refusal :=
  s.coreStep i (.vcvtI32F32 i) (convOp i 32 0 1 (fun l j =>
    let (v, fl) := fmt32.toInt 32 (lane 32 (arg l 0) j)
    ⟨wrapNat v 32, fl⟩))

/-- VCVT.F32.I32: from signed 32-bit lanes. -/
def execVcvtF32I32 (i : Issue) (s : State) : Host.Outcome State Fault Refusal :=
  s.coreStep i (.vcvtF32I32 i) (convOp i 32 0 1 (fun l j => fmt32.ofInt (sext (lane 32 (arg l 0) j) 32)))

/-! ## Lane arithmetic (R162) -/

/-- VADD: c = a + b (R162). -/
def execVadd (i : Issue) (f : LaneFormat) (s : State) : Host.Outcome State Fault Refusal :=
  s.coreStep i (.vadd i f) (elemOp i (laneBits f) 2 (fun l => laneAdd f (arg l 0) (arg l 1)))

/-- VSUB: c = a - b (R162). -/
def execVsub (i : Issue) (f : LaneFormat) (s : State) : Host.Outcome State Fault Refusal :=
  s.coreStep i (.vsub i f) (elemOp i (laneBits f) 2 (fun l => laneSub f (arg l 0) (arg l 1)))

/-- VMUL: c = a b (R162). -/
def execVmul (i : Issue) (f : LaneFormat) (s : State) : Host.Outcome State Fault Refusal :=
  s.coreStep i (.vmul i f) (elemOp i (laneBits f) 2 (fun l => laneMul f (arg l 0) (arg l 1)))

/-- VDIV: c = a / b (R162). -/
def execVdiv (i : Issue) (f : LaneFormat) (s : State) : Host.Outcome State Fault Refusal :=
  s.coreStep i (.vdiv i f) (elemOp i (laneBits f) 2 (fun l => laneDiv f (arg l 0) (arg l 1)))

/-- VFMA: d = a b + c with one rounding (R162). -/
def execVfma (i : Issue) (f : LaneFormat) (s : State) : Host.Outcome State Fault Refusal :=
  s.coreStep i (.vfma i f) (elemOp i (laneBits f) 3 (fun l => laneFma f (arg l 0) (arg l 1) (arg l 2)))

/-- VSQRT (R162). -/
def execVsqrt (i : Issue) (f : LaneFormat) (s : State) : Host.Outcome State Fault Refusal :=
  s.coreStep i (.vsqrt i f) (elemOp i (laneBits f) 1 (fun l => laneSqrt f (arg l 0)))

/-- VMIN (R162, R139, R77). -/
def execVmin (i : Issue) (f : LaneFormat) (s : State) : Host.Outcome State Fault Refusal :=
  s.coreStep i (.vmin i f) (elemOp i (laneBits f) 2 (fun l => laneMinMax f false (arg l 0) (arg l 1)))

/-- VMAX (R162, R139, R77). -/
def execVmax (i : Issue) (f : LaneFormat) (s : State) : Host.Outcome State Fault Refusal :=
  s.coreStep i (.vmax i f) (elemOp i (laneBits f) 2 (fun l => laneMinMax f true (arg l 0) (arg l 1)))

/-- VNEG: the sign bit only, no flag (R162). -/
def execVneg (i : Issue) (f : LaneFormat) (s : State) : Host.Outcome State Fault Refusal :=
  s.coreStep i (.vneg i f) (elemOp i (laneBits f) 1 (fun l => ⟨laneNeg f (arg l 0), 0⟩))

/-- VABS: the sign bit only, no flag (R162). -/
def execVabs (i : Issue) (f : LaneFormat) (s : State) : Host.Outcome State Fault Refusal :=
  s.coreStep i (.vabs i f) (elemOp i (laneBits f) 1 (fun l => ⟨laneAbs f (arg l 0), 0⟩))

/-- VCMP: a lane of ones when true, zero when false (R162); codes 8 to 15 are reserved. -/
def execVcmp (i : Issue) (f : LaneFormat) (cc : BitVec 4) (s : State) : Host.Outcome State Fault Refusal :=
  s.coreStep i (.vcmp i f cc)
    { elemOp i (laneBits f) 2 (fun l =>
        let (b, fl) := laneCmp f cc.toNat (arg l 0) (arg l 1)
        ⟨if b then 2 ^ laneBits f - 1 else 0, fl⟩) with reserved := decide (8 ≤ cc.toNat) }

/-- VSEL: c = a where the m lane is not all zero, b elsewhere (R162). -/
def execVsel (i : Issue) (f : LaneFormat) (s : State) : Host.Outcome State Fault Refusal :=
  s.coreStep i (.vsel i f) (elemOp i (laneBits f) 3 (fun l => ⟨if arg l 0 = 0 then arg l 2 else arg l 1, 0⟩))

/-- The exponential of a lane; reserved for K16 (R162, R163; log 16). -/
def laneExp (f : LaneFormat) (x : Nat) : FRes := match f with | .f32 => fmt32.exp x | .f64 => fmt64.exp x | .k16 => ⟨0, 0⟩
/-- The natural logarithm of a lane; reserved for K16. -/
def laneLog (f : LaneFormat) (x : Nat) : FRes := match f with | .f32 => fmt32.log x | .f64 => fmt64.log x | .k16 => ⟨0, 0⟩

/-- VEXP (R162, R163). -/
def execVexp (i : Issue) (f : LaneFormat) (s : State) : Host.Outcome State Fault Refusal :=
  s.coreStep i (.vexp i f) { elemOp i (laneBits f) 1 (fun l => laneExp f (arg l 0)) with reserved := f == .k16 }

/-- VLOG (R162, R163). -/
def execVlog (i : Issue) (f : LaneFormat) (s : State) : Host.Outcome State Fault Refusal :=
  s.coreStep i (.vlog i f) { elemOp i (laneBits f) 1 (fun l => laneLog f (arg l 0)) with reserved := f == .k16 }

/-! ## Reductions (R162, R163) -/

/-- VRSUM: the sum of the active lanes; K16 sums in binary32. -/
def execVrsum (i : Issue) (f : LaneFormat) (s : State) : Host.Outcome State Fault Refusal :=
  s.coreStep i (.vrsum i f) (reduceOp i (laneBits f) (scalarBits f) (fun l =>
    match f with
    | .f32 => treeOf fmt32.add 13 l
    | .f64 => treeOf fmt64.add 13 l
    | .k16 => treeOf fmt32.add 13 (l.map (fun x => (fmt32.ofK 0 x).v))))

/-- The largest or smallest of the lanes as a scalar (R162). -/
def reduceMinMax (f : LaneFormat) (isMax : Bool) (l : List Nat) : FRes :=
  let r := treeOf (laneMinMax f isMax) 13 l
  ⟨toScalar f r.v, r.fl⟩

/-- VRMAX. -/
def execVrmax (i : Issue) (f : LaneFormat) (s : State) : Host.Outcome State Fault Refusal :=
  s.coreStep i (.vrmax i f) (reduceOp i (laneBits f) (scalarBits f) (reduceMinMax f true))

/-- VRMIN. -/
def execVrmin (i : Issue) (f : LaneFormat) (s : State) : Host.Outcome State Fault Refusal :=
  s.coreStep i (.vrmin i f) (reduceOp i (laneBits f) (scalarBits f) (reduceMinMax f false))

/-! ## Movement (R162, R169) -/

/-- VBCAST: scalar element 0 to every active lane. -/
def execVbcast (i : Issue) (f : LaneFormat) (s : State) : Host.Outcome State Fault Refusal :=
  let k := i.core.val
  s.coreStep i (.vbcast i f)
    { vpop := 1, vpush := 1
      run := fun s =>
        let x := ofScalar f (s.scalar k 0 (scalarBits f))
        let r := lanesOf (laneBits f) (s.activeLanes k (laneBits f) 0) (fun _ => ⟨x.v, 0⟩)
        (s.vpop k 1).vresult k (s.core k).pc ⟨r.v, x.fl⟩ (allPoison (s.anyPoison k 1)) }

/-- VLANE: pushes lane i as a scalar over its slot, 0 beyond the slot, whatever VLEN holds. -/
def execVlane (i : Issue) (f : LaneFormat) (s : State) : Host.Outcome State Fault Refusal :=
  let k := i.core.val
  s.coreStep i (.vlane i f)
    { ipop := 1, vpop := 1, vpush := 2
      run := fun s =>
        let n := (s.itop k 0).toNat
        let x := if n < laneCount (laneBits f) then toScalar f (lane (laneBits f) (s.slotBits k 0) n) else 0
        (s.ipop k 1).vresult k (s.core k).pc ⟨x, 0⟩ (allPoison (s.anyPoison k 1)) }

/-- Replace lane `l` of a slot. -/
def setLane (w v l x : Nat) : Nat :=
  v % 2 ^ (w * l) + x % 2 ^ w * 2 ^ (w * l) + (v >>> (w * (l + 1))) * 2 ^ (w * (l + 1))

/-- VINS: w = v with lane i replaced by the scalar; unchanged when i is beyond the slot. -/
def execVins (i : Issue) (f : LaneFormat) (s : State) : Host.Outcome State Fault Refusal :=
  let k := i.core.val
  s.coreStep i (.vins i f)
    { ipop := 1, vpop := 2, vpush := 1
      run := fun s =>
        let n := (s.itop k 0).toNat
        let x := ofScalar f (s.scalar k 0 (scalarBits f))
        let v := s.slotBits k 1
        let r := if n < laneCount (laneBits f) then setLane (laneBits f) v n x.v else v
        ((s.ipop k 1).vpop k 2).vresult k (s.core k).pc ⟨r, x.fl⟩ (allPoison (s.anyPoison k 2)) }

/-- A slide: result lane l is the source lane `src l` names, or 0 (R162). -/
def slideOp (i : Issue) (w : Nat) (src : Nat → Nat → Option Nat) : CoreOp :=
  { ipop := 1, vpop := 1, vpush := 1
    run := fun s =>
      let k := i.core.val
      let n := (s.itop k 0).toNat
      let v := s.slotBits k 0
      let r := lanesOf w (s.activeLanes k w 0) (fun l =>
        match src n l with
        | some j => ⟨if j < laneCount w then lane w v j else 0, 0⟩
        | none => ⟨0, 0⟩)
      ((s.ipop k 1).vpop k 1).vresult k (s.core k).pc r (allPoison (s.anyPoison k 1)) }

/-- VSLIDEDN: w lane l = v lane l + k, or 0 beyond the slot. -/
def execVslidedn (i : Issue) (f : LaneFormat) (s : State) : Host.Outcome State Fault Refusal :=
  s.coreStep i (.vslidedn i f) (slideOp i (laneBits f) (fun n l => some (l + n)))

/-- VSLIDEUP: w lane l = v lane l - k, or 0 when l < k. -/
def execVslideup (i : Issue) (f : LaneFormat) (s : State) : Host.Outcome State Fault Refusal :=
  s.coreStep i (.vslideup i f) (slideOp i (laneBits f) (fun n l => if l < n then none else some (l - n)))

/-- VIOTA: lane l holds the value l. -/
def execViota (i : Issue) (f : LaneFormat) (s : State) : Host.Outcome State Fault Refusal :=
  let k := i.core.val
  s.coreStep i (.viota i f)
    { vpush := 1
      run := fun s => s.vresult k (s.core k).pc (lanesOf (laneBits f) (s.activeLanes k (laneBits f) 0) (fun l => ⟨laneOfNat f l, 0⟩)) 0 }

end Sys2Proof.Machine
end

