-- ==== Sys2Proof/Machine/VectorMem.lean ====
section
/-! DEFINITION. Vector loads and stores, the exchange with the tile side, and the fold (R157 to R159, R166 to R169, R179, R180). -/
namespace Sys2Proof.Machine

/-- Bytes of a lane of VLD and VST (R161). -/
def laneBytes : LaneWidth → Nat
  | .w16 => 2 | .w32 => 4 | .w64 => 8

/-- Bytes a vector load or store covers (R157). -/
def State.vecBytes (s : State) (k : Nat) (wd : LaneWidth) : Nat := s.activeLanes k (8 * laneBytes wd) 0 * laneBytes wd

/-- Faults of a vector access of `n` bytes: none when it covers no byte; alignment is free (R157, R158). -/
def State.vecFaults (s : State) (k : Nat) (write : Bool) (va n : Nat) : List Cause :=
  if n = 0 then [] else s.rangeFaults k write false va n

/-- The poison each quarter takes from the memory it is loaded from (R169, R280). -/
def State.loadPoison (s : State) (k va n : Nat) : BitVec 4 :=
  BitVec.ofNat 4 (packBits ((List.range 4).map (fun q =>
    decide (256 * q < n) && (s.loadDev k (va + 256 * q) (min 256 (n - 256 * q))).poison)))

/-- VLD (R157, R158): all or nothing; the other lanes are +0. -/
def execVld (i : Issue) (wd : LaneWidth) (s : State) : Host.Outcome State Fault Refusal :=
  let k := i.core.val
  s.coreStep i (.vld i wd)
    { ipop := 1, vpush := 1
      faults := fun s => s.vecFaults k false (s.itop k 0).toNat (s.vecBytes k wd)
      probe := fun _ s => s.probe k false (s.itop k 0).toNat (s.vecBytes k wd)
      masked := fun _ s => (s.ipop k 1).vpush k zeroSlot
      wait := fun s => if s.vecBytes k wd = 0 then none else s.loadWait k (s.itop k 0).toNat (s.vecBytes k wd)
      run := fun s =>
        let va := (s.itop k 0).toNat
        let n := s.vecBytes k wd
        if n = 0 then (s.ipop k 1).vpush k zeroSlot
        else
          let r := s.loadDev k va n
          (r.st.ipop k 1).vpush k ⟨BitVec.ofNat 8192 (leNat r.bytes), s.loadPoison k va n⟩ }

/-- The first `n` bytes of a slot as runs of quarters of equal poison: offset, length, poison. -/
def quarterRuns (p : BitVec 4) (n : Nat) : List (Nat × Nat × Bool) :=
  ([0, 1, 2, 3].filter (fun q => decide (256 * q < n))).foldr (fun q acc =>
    let len := min 256 (n - 256 * q)
    match acc with
    | (_, l, b) :: r => if b = p.getLsbD q then (256 * q, len + l, b) :: r else (256 * q, len, p.getLsbD q) :: acc
    | [] => [(256 * q, len, p.getLsbD q)]) []

/-- Store a slot's bytes, each run with its poison; a line is one request. -/
def State.storeRuns (s : State) (k va : Nat) (data : List Byte) (runs : List (Nat × Nat × Bool)) : State :=
  match s.xlateRange k (s.access k true) va data.length with
  | (s, .inr segs) => s.writeLines k none (lineGroups (runs.flatMap (fun e => segParts e.2.2 (subSegs segs e.1 e.2.1) ((data.drop e.1).take e.2.1))))
  | (s, .inl _) => s

/-- VST (R157, R158, R169): each poisoned quarter is written with poison. -/
def execVst (i : Issue) (wd : LaneWidth) (s : State) : Host.Outcome State Fault Refusal :=
  let k := i.core.val
  s.coreStep i (.vst i wd)
    { ipop := 1, vpop := 1
      faults := fun s => s.vecFaults k true (s.itop k 0).toNat (s.vecBytes k wd)
      probe := fun _ s => s.probe k true (s.itop k 0).toNat (s.vecBytes k wd)
      masked := fun _ s => (s.ipop k 1).vpop k 1
      wait := fun s => if s.vecBytes k wd = 0 then none else s.storeWait k (s.itop k 0).toNat (s.vecBytes k wd)
      run := fun s =>
        let n := s.vecBytes k wd
        ((s.storeRuns k (s.itop k 0).toNat (leBytes n (s.slotBits k 0)) (quarterRuns (s.vtop k 0).poison n)).ipop k 1).vpop k 1 }

/-! ## Exchange with the tile side (R166 to R168) -/

/-- Entries moved by code c. -/
def vqCount (c : BitVec 2) : Nat := match c.toNat with | 0 => 1 | 1 => 2 | _ => 4

/-- VQ0 and VQ1 in the queue order of R307. -/
def vq0 : Nat := 12
/-- VQ1. -/
def vq1 : Nat := 13

/-- Whether the first `n` entries of VQ0 can be popped now. -/
def State.vqReady (s : State) (k n : Nat) : Bool :=
  decide (n ≤ (s.queue k vq0).length) && ((s.queue k vq0).take n).all (s.ripe k)

/-- The side information of popped entries (R167). -/
def vqSide (l : List QEntry) : W64 :=
  BitVec.ofNat 64 (packWords 10 (l.map (fun e => e.tag.toNat))
    + 2 ^ 40 * packBits (l.map (·.valid)) + 2 ^ 44 * packBits (l.map (·.poison)))

/-- The slot of popped entries: a quarter is zero when its entry has valid = 0 (R167, R169). -/
def vqSlot (l : List QEntry) : VSlot :=
  ⟨BitVec.ofNat 8192 (packWords 2048 (l.map (fun e => if e.valid then e.row.toNat else 0))), BitVec.ofNat 4 (packBits (l.map (·.poison)))⟩

/-- VQPOP (R166 to R168): waits until VQ0 holds n entries. -/
def execVqpop (i : Issue) (c : BitVec 2) (s : State) : Host.Outcome State Fault Refusal :=
  let k := i.core.val
  let n := vqCount c
  s.coreStep i (.vqpop i c)
    { ipush := 1, vpush := 1, reserved := c == 3
      wait := fun s => if s.vqReady k n && !s.frozen (.ae k) then none else some (.vqpop, s)
      run := fun s =>
        let l := (s.queue k vq0).take n
        ((s.setQueue k vq0 ((s.queue k vq0).drop n)).ipush k (vqSide l)).vpush k (vqSlot l) }

/-- Push `n` entries of a slot to VQ1, the lowest quarter first. -/
def State.vqPushes (s : State) (k : Nat) (t : Nat) (v : VSlot) : Nat → State
  | 0 => s
  | n + 1 => (s.vqPushes k t v n).push k vq1
      { row := BitVec.ofNat 2048 (bits v.v.toNat (2048 * n) 2048), valid := t.testBit (40 + n)
        tag := BitVec.ofNat 10 (t >>> (10 * n)), poison := t.testBit (44 + n) || v.poison.getLsbD n }

/-- VQPUSH (R166 to R168): waits until VQ1 has n free entries. -/
def execVqpush (i : Issue) (c : BitVec 2) (s : State) : Host.Outcome State Fault Refusal :=
  let k := i.core.val
  let n := vqCount c
  s.coreStep i (.vqpush i c)
    { ipop := 1, vpop := 1, reserved := c == 3
      wait := fun s => if s.room k vq1 n && !s.frozen (.ae k) then none else some (.vqpush, s)
      run := fun s => ((s.vqPushes k (s.itop k 0).toNat (s.vtop k 0) n).ipop k 1).vpop k 1 }

/-! ## The fold (R105 to R109, R179, R180) -/

/-- VFOLD (R179, R108): every generator steps once. -/
def execVfold (i : Issue) (s : State) : Host.Outcome State Fault Refusal :=
  let k := i.core.val
  s.coreStep i (.vfold i)
    { vpop := 2, vpush := 1
      run := fun s =>
        let g := (s.gensOf k).map (fun v => galois v.toNat)
        let r := lanesOf 32 (s.activeLanes k 32 0) (fun l =>
          foldAdd (lane 32 (s.slotBits k 1) l) (lane 32 (s.slotBits k 0) l) (g.getD l 1))
        let p := allPoison (s.anyPoison k 2)
        ((s.modCore k (fun c => { c with gens := g.map (BitVec.ofNat 32) })).vpop k 2).vresult k (s.core k).pc r p }

/-- PRIVILEGE and DMEM_RANGE of the 1 KiB area of the generators (R127, R179). -/
def State.foldArea (s : State) (k a : Nat) : List Cause :=
  (if !s.priv k && decide (s.reg (.cu k) 0x420 < a + 1024) then [{ code := 1 }] else [])
  ++ (if a % 4 ≠ 0 ∨ dmemSize < a + 1024 then [{ code := 6, addr := BitVec.ofNat 64 a }] else [])

/-- VFOLD.SAVE (R179): lane l at d + 4l. -/
def execVfoldSave (i : Issue) (s : State) : Host.Outcome State Fault Refusal :=
  let k := i.core.val
  s.coreStep i (.vfoldSave i)
    { ipop := 1
      faults := fun s => s.foldArea k (s.itop k 0).toNat
      masked := fun c s => if c = 1 then s else s.ipop k 1
      run := fun s => ((s.dmemWriteP k (s.itop k 0).toNat ((s.gensOf k).flatMap (fun v => u32 v.toNat)) false).ipop k 1).bankWait k }

/-- A generator state loaded from a word: 0 loads 0x0000_0001 (R179). -/
def loadedGen (v : Nat) : W32 := if v = 0 then 1 else BitVec.ofNat 32 v

/-- VFOLD.LOAD (R179): every word reads as 0 when DMEM_RANGE is masked. DESIGN CHOICE (log 127): words of poisoned core data memory are loaded as they stand, and their poison goes no further: a generator state holds none. -/
def execVfoldLoad (i : Issue) (s : State) : Host.Outcome State Fault Refusal :=
  let k := i.core.val
  s.coreStep i (.vfoldLoad i)
    { ipop := 1
      faults := fun s => s.foldArea k (s.itop k 0).toNat
      masked := fun c s => if c = 1 then s
        else (s.ipop k 1).modCore k (fun x => { x with gens := List.replicate 256 (loadedGen 0) })
      run := fun s =>
        let a := (s.itop k 0).toNat
        let g := (List.range 256).map (fun l => loadedGen (s.dmemNat k (a + 4 * l) 4))
        ((s.ipop k 1).modCore k (fun x => { x with gens := g })).bankWait k }

end Sys2Proof.Machine
end

