-- ==== Sys2Proof/Machine/Wide.lean ====
section
/-! DEFINITION. The resumable instructions: the wide-precision family and MCOPY, chunk by chunk (R170 to R178, R181, R182). -/
namespace Sys2Proof.Machine

/-! ## The arithmetic of one chunk (R171 to R173) -/

/-- A binary32 encoding widened exactly to binary64, no flag: a signalling NaN stays one (R173). -/
def widen32 (x : Nat) : Nat :=
  match fmt32.num x with
  | .nan _ => (if fmt32.neg x then fmt64.signBit else 0) + fmt64.infBits + x % 2 ^ 23 * 2 ^ 29
  | _ => (cvtFmt fmt32 fmt64 x).v

/-- Whether a binary64 encoding is a NaN. -/
def isNan64 (x : Nat) : Bool := match fmt64.num x with | .nan _ => true | _ => false
/-- Minus infinity in binary64. -/
def negInf64 : Nat := fmt64.signBit + fmt64.infBits

/-- Add a row of elements into the partials, one each (R171). -/
def sumRow (sq : Bool) : List W64 → List Nat → List W64 × Nat
  | p :: ps, x :: xs =>
    let w := widen32 x
    let q : FRes := if sq then fmt64.mul w w else ⟨w, 0⟩
    let t := fmt64.add p.toNat q.v
    let (l, fl) := sumRow sq ps xs
    (BitVec.ofNat 64 t.v :: l, q.fl ||| t.fl ||| fl)
  | ps, _ => (ps, 0)

/-- One element into a pair (m, c) (R172). DESIGN CHOICE (log 124): a NaN leaves the default NaN in its pair and +Inf leaves m at +Inf with c unchanged; the pair then takes nothing more but a NaN, and its other elements raise no flag. -/
def lseElem (m c x : Nat) : Nat × Nat × Nat :=
  let w := widen32 x
  if isNan64 w then (fmt64.dnan, fmt64.dnan, if w.testBit 51 then 0 else fmt64.inv)
  else if isNan64 m then (m, c, 0)
  else if w = fmt64.infBits ∨ m = fmt64.infBits then (fmt64.infBits, c, 0)
  else if w = negInf64 then (m, c, 0)
  else if (fmt64.cmp 4 w m).1 then
    let d := fmt64.sub m w
    let e := if m = negInf64 then ⟨0, 0⟩ else fmt64.exp d.v
    let p := fmt64.mul c e.v
    let t := fmt64.add p.v (fmt64.ofInt 1).v
    (w, t.v, (if m = negInf64 then 0 else d.fl) ||| e.fl ||| p.fl ||| t.fl)
  else
    let d := fmt64.sub w m
    let e := fmt64.exp d.v
    let t := fmt64.add c e.v
    (m, t.v, d.fl ||| e.fl ||| t.fl)

/-- A row of elements into the pairs, one each (R172). -/
def lseRow : List W64 → List Nat → List W64 × Nat
  | m :: c :: ps, x :: xs =>
    let (m', c', f) := lseElem m.toNat c.toNat x
    let (l, fl) := lseRow ps xs
    (BitVec.ofNat 64 m' :: BitVec.ofNat 64 c' :: l, f ||| fl)
  | ps, _ => (ps, 0)

/-- All elements of a chunk, row after row. -/
def foldRows (f : List W64 → List Nat → List W64 × Nat) : List W64 → List (List Nat) → List W64 × Nat
  | ps, [] => (ps, 0)
  | ps, r :: rs =>
    let (ps, a) := f ps r
    let (ps, b) := foldRows f ps rs
    (ps, a ||| b)

/-- The partials of a (m, c) list as pairs. -/
def pairsOf : List W64 → List (Nat × Nat)
  | m :: c :: r => (m.toNat, c.toNat) :: pairsOf r
  | _ => []

/-- exp(m1 - m), 0 for m1 = -Inf (R172). -/
def lseScale (m1 m : Nat) : FRes :=
  if m1 = negInf64 then ⟨0, 0⟩
  else
    let d := fmt64.sub m1 m
    let e := fmt64.exp d.v
    ⟨e.v, d.fl ||| e.fl⟩

/-- Combine two pairs (R172). -/
def lseCombine (a b : Nat × Nat) : (Nat × Nat) × Nat :=
  let m := (fmt64.minMax true a.1 b.1).v
  let x := lseScale a.1 m
  let y := lseScale b.1 m
  let p := fmt64.mul a.2 x.v
  let q := fmt64.mul b.2 y.v
  let t := fmt64.add p.v q.v
  ((m, t.v), x.fl ||| y.fl ||| p.fl ||| q.fl ||| t.fl)

/-- One level of the tree of R163 over pairs. -/
def pairLevel : List (Nat × Nat) → List (Nat × Nat) × Nat
  | a :: b :: r =>
    let (c, f) := lseCombine a b
    let (l, fl) := pairLevel r
    (c :: l, f ||| fl)
  | l => (l, 0)

/-- The tree over pairs. -/
def pairTree : Nat → List (Nat × Nat) → (Nat × Nat) × Nat
  | _, [] => ((negInf64, 0), 0)
  | _, [a] => (a, 0)
  | 0, a :: _ => (a, 0)
  | n + 1, l =>
    let (l, fl) := pairLevel l
    let (r, f) := pairTree n l
    (r, f ||| fl)

/-- The log-sum-exp of the partials: NaN first, then +Inf, then the tree (R172). -/
def lseResult (ps : List W64) : FRes :=
  let l := pairsOf ps
  if l.any (fun p => isNan64 p.1) then ⟨fmt64.dnan, 0⟩
  else if l.any (fun p => p.1 == fmt64.infBits) then ⟨fmt64.infBits, 0⟩
  else
    let ((m, c), fl) := pairTree 13 l
    if m = negInf64 then ⟨negInf64, fl⟩
    else
      let g := fmt64.log c
      let t := fmt64.add m g.v
      ⟨t.v, fl ||| g.fl ||| t.fl⟩

/-! ## Which instruction -/

/-- OP of R175: the MINOR of a resumable instruction. -/
def resumOp : Instr → Nat
  | .vwredSsq _ => 1
  | .vwredLse _ => 2
  | .vxent _ => 3
  | _ => 0
/-- MCOPY. -/
def isCopy : Instr → Bool
  | .mcopy _ => true
  | _ => false
/-- Its progress register: CORE_VPROG or CORE_MPROG (R175). DESIGN CHOICE (log 126): CORE_MPROG.OP is RW and holds what software writes, though an MCOPY always leaves 0 in it. -/
def progOff (ins : Instr) : Nat := if isCopy ins then 0x244 else 0x240
/-- Its integer operands. -/
def resumPops : Instr → Nat
  | .vxent _ => 3
  | .mcopy _ => 3
  | _ => 2
/-- The partials it starts from (R171, R172). -/
def firstPartials (ins : Instr) : List W64 :=
  match resumOp ins with
  | 2 => (List.replicate 64 [BitVec.ofNat 64 negInf64, 0]).flatten
  | 3 => (List.replicate 64 [BitVec.ofNat 64 negInf64, 0]).flatten
  | _ => List.replicate 128 0

/-- Whether the instruction resumes at issue (R176 item 1). -/
def State.resumes (s : State) (k : Nat) (ins : Instr) : Bool :=
  let v := s.reg (.cu k) (progOff ins)
  v.testBit 31 && bits v 16 4 == resumOp ins

/-! ## Operands and chunks (R174, R181) -/

/-- The operands as they lie on the stack: destination (MCOPY), source address, bytes. -/
def State.resumArgs (s : State) (k : Nat) (ins : Instr) : Nat × Nat × Nat :=
  match ins with
  | .mcopy _ => ((s.itop k 2).toNat, (s.itop k 1).toNat, min (s.itop k 0).toNat (2 ^ 26))
  | .vxent _ => (0, (s.itop k 2).toNat, 4 * min (s.itop k 1).toNat (2 ^ 24))
  | _ => (0, (s.itop k 1).toNat, 4 * min (s.itop k 0).toNat (2 ^ 24))

/-- Chunks of an operand: 4,096 elements of 4 bytes each. -/
def chunkCount (n : Nat) : Nat := (n + 16383) / 16384

/-- Bytes of chunk `j`. -/
def chunkBytes (n j : Nat) : Nat := min 16384 (n - 16384 * j)

/-- Read a range through the cache without allocating (R287); what cannot be read is none, page by page. -/
def State.readCuts (s : State) (k : Nat) : List (Nat × Nat) → State × List (Option Byte) × Bool
  | [] => (s, [], false)
  | (va, n) :: r =>
    match s.xlateRange k (s.access k false) va n with
    | (s, .inl _) =>
      let (s, l, p) := s.readCuts k r
      (s, List.replicate n none ++ l, p)
    | (s, .inr segs) =>
      let a := s.readSegs k false segs
      let (s, l, p) := a.st.readCuts k r
      (s, a.bytes.map some ++ l, a.poison || p)

/-- Read a range of device memory whatever faults. -/
def State.readOpen (s : State) (k va n : Nat) : State × List (Option Byte) × Bool := s.readCuts k (pageCuts (n / 2 ^ 21 + 2) va n)

/-- The bytes of an element: +0 when any of them cannot be read and the instruction reads elements (R178). -/
def elementBytes (copy : Bool) (l : List (Option Byte)) : List Byte :=
  if copy || l.all Option.isSome then l.map (fun b => b.getD 0) else List.replicate l.length 0

/-- The elements of a chunk with the poison of each (R280; log 45). -/
def State.elementPoison (s : State) (k va : Nat) : List (List Byte) → List (List Byte × Bool)
  | [] => []
  | e :: r => (e, (s.readOpen k va e.length).2.2) :: s.elementPoison k (va + e.length) r

/-- A chunk's data: one piece when nothing is poisoned, else its elements (R169, R182). -/
def State.chunkData (s : State) (k : Nat) (copy : Bool) (va n : Nat) : State × List (List Byte × Bool) :=
  let (s', l, p) := s.readOpen k va n
  let els := (chunksOf 4 4096 l).map (elementBytes copy)
  (s', if p then s.elementPoison k va els else [(els.flatten, false)])

/-- Whether the sorting frame lets the reads of a range go now (R255). -/
def State.openGoes (s : State) (k va n : Nat) : Bool :=
  (pageCuts (n / 2 ^ 21 + 2) va n).all (fun c => match s.xlateRange k (s.access k false) c.1 c.2 with
    | (t, .inr segs) => t.readsGo k segs
    | (_, .inl (c, _)) => s.readsGo k [] && c != xHeld)

/-- The state while they wait. -/
def State.openStall (s : State) (k va n : Nat) : State :=
  s.readStall k ((pageCuts (n / 2 ^ 21 + 2) va n).flatMap (fun c => match s.xlateRange k (s.access k false) c.1 c.2 with
    | (_, .inr segs) => segs
    | (_, .inl _) => []))

/-- Whether a walk for the writes of an MCOPY's chunk is held (R61). -/
def State.copyHeld (s : State) (k : Nat) (ins : Instr) (j : Nat) : Bool :=
  let (dst, _, n) := s.resumArgs k ins
  isCopy ins && s.walkHeld k (s.access k true) (dst + 16384 * j) (chunkBytes n j)

/-- The faults of a chunk: its reads, and for MCOPY its writes (R178, R182); the lowest address governs. -/
def State.chunkFault (s : State) (k : Nat) (ins : Instr) (j : Nat) : Option Cause :=
  let (dst, src, n) := s.resumArgs k ins
  let len := chunkBytes n j
  let a := s.rangeFaults k false false (src + 16384 * j) len
  let b := if isCopy ins then s.rangeFaults k true false (dst + 16384 * j) len else []
  match a ++ b with
  | [] => none
  | [c] => some c
  | c :: d :: _ => some (if d.addr.toNat < c.addr.toNat then d else c)

/-- The partials as one slot (R176). -/
def partialSlot (ps : List W64) (poison : Bool) : VSlot :=
  ⟨BitVec.ofNat 8192 (packWords 64 (ps.map (·.toNat))), allPoison poison⟩

/-- The instruction stops with `chunk` still to do: progress, partials, flags so far (R176 item 2, R178). DESIGN CHOICE (log 125): the arithmetic flags of finished chunks are raised here and at completion, not at each chunk's end. -/
def State.resumStop (s : State) (k : Nat) (r : Resum) : State :=
  let s := s.setReg (.cu k) (progOff r.instr) (2 ^ 31 + resumOp r.instr * 2 ^ 16 + r.chunk)
  let s := if isCopy r.instr then s else s.vpush k (partialSlot r.partials r.poison)
  (s.modCore k (fun c => { c with resum := none })).raiseArithFrom k false (s.core k).pc r.flags r.flags 13

/-- A chunk's fault stops the instruction; a held imprecise cause or an interrupt is taken first, the instruction then comes to issue again (R351). -/
def State.resumFault (s : State) (k : Nat) (r : Resum) (c : Cause) : State :=
  let s := s.resumStop k r
  if h : k < 128 then
    match s.takeBoundary k h with
    | some s' => s'
    | none => s.precise k c (s.core k).pc
  else s

/-- A chunk begins: all its loads issue, or its fault stops the instruction (R174, R178). While the sorting frame holds them back the chunk waits for them. -/
def State.chunkBegin (s : State) (k : Nat) (r : Resum) : State :=
  let (_, src, n) := s.resumArgs k r.instr
  let va := src + 16384 * r.chunk
  let len := chunkBytes n r.chunk
  let hold := fun (s : State) => s.modCore k (fun c => { c with resum := some { r with data := none } })
  if chunkCount n ≤ r.chunk then hold s
  else if !s.openGoes k va len || s.copyHeld k r.instr r.chunk then hold (s.openStall k va len)
  else
    let load := fun (s : State) =>
      let (s, d) := s.chunkData k (isCopy r.instr) va len
      s.modCore k (fun c => { c with resum := some { r with data := some d } })
    match s.chunkFault k r.instr r.chunk with
    | none => load s
    | some c => if s.masked k 4 then load (s.noteMasked k 4) else s.resumFault k r c

/-- Issue of a resumable instruction (R176 item 1). -/
def State.resumBegin (s : State) (k : Nat) (ins : Instr) : State :=
  if s.resumes k ins then
    let v := s.vtop k 0
    let ps := if isCopy ins then [] else (List.range 128).map (fun l => BitVec.ofNat 64 (lane 64 v.v.toNat l))
    let s := if isCopy ins then s else s.vpop k 1
    s.chunkBegin k { instr := ins, chunk := bits (s.reg (.cu k) (progOff ins)) 0 13, partials := ps, flags := 0, poison := !isCopy ins && v.poison != 0 }
  else s.chunkBegin k { instr := ins, chunk := 0, partials := firstPartials ins, flags := 0, poison := false }

/-- The chunk a resumable instruction would start at now (R176 item 1). -/
def State.resumFrom (s : State) (k : Nat) (ins : Instr) : Nat := if s.resumes k ins then bits (s.reg (.cu k) (progOff ins)) 0 13 else 0

/-- What a resumable instruction needs at issue: its operands stay on the stack; a slot for its partials or its result. -/
def resumIssue (s : State) (i : Issue) (ins : Instr) : CoreOp :=
  { ipop := resumPops ins, ipush := resumPops ins
    vpop := if !isCopy ins && s.resumes i.core.val ins then 1 else 0
    vpush := if isCopy ins then 0 else 1
    wait := fun s =>
      let (_, src, n) := s.resumArgs i.core.val ins
      let j := s.resumFrom i.core.val ins
      if s.openGoes i.core.val (src + 16384 * j) (chunkBytes n j) && !s.copyHeld i.core.val ins j then none
      else some (.memory, s.openStall i.core.val (src + 16384 * j) (chunkBytes n j))
    run := fun s => s.resumBegin i.core.val ins
    ownPc := true }

/-- VWRED.SUM (R171). -/
def execVwredSum (i : Issue) (s : State) : Host.Outcome State Fault Refusal := s.coreStep i (.vwredSum i) (resumIssue s i (.vwredSum i))
/-- VWRED.SSQ (R171). -/
def execVwredSsq (i : Issue) (s : State) : Host.Outcome State Fault Refusal := s.coreStep i (.vwredSsq i) (resumIssue s i (.vwredSsq i))
/-- VWRED.LSE (R172). -/
def execVwredLse (i : Issue) (s : State) : Host.Outcome State Fault Refusal := s.coreStep i (.vwredLse i) (resumIssue s i (.vwredLse i))
/-- VXENT (R172). -/
def execVxent (i : Issue) (s : State) : Host.Outcome State Fault Refusal := s.coreStep i (.vxent i) (resumIssue s i (.vxent i))
/-- MCOPY (R181). -/
def execMcopy (i : Issue) (s : State) : Host.Outcome State Fault Refusal := s.coreStep i (.mcopy i) (resumIssue s i (.mcopy i))

/-! ## The end of a chunk (R174, R176) -/

/-- The parts of a write whose bytes carry poison of their own: a sector takes poison when any of its bytes does, and a sector wholly overwritten by others loses it (R280; log 45). -/
def flagParts : List (Nat × Nat) → List Byte → List Bool → List WPart
  | [], _, _ => []
  | (pa, n) :: r, data, fl => ⟨pa, data.take n, (fl.take n).any id⟩ :: flagParts r (data.drop n) (fl.drop n)

/-- The parts of a chunk's write, page by page; what faults is left out (R182). -/
def State.chunkParts (s : State) (k : Nat) (data : List Byte) (fl : List Bool) : List (Nat × Nat) → State × List WPart
  | [] => (s, [])
  | (va, n) :: r =>
    let (s, l) : State × List WPart := match s.xlateRange k (s.access k true) va n with
      | (s, .inr segs) => (s, flagParts (segs.flatMap (fun g => sectorPieces g.pa g.len)) (data.take n) (fl.take n))
      | (s, .inl _) => (s, [])
    let (s, l') := s.chunkParts k (data.drop n) (fl.drop n) r
    (s, l ++ l')

/-- The write requests of an MCOPY chunk. -/
def State.chunkWrites (s : State) (k va : Nat) (d : List (List Byte × Bool)) : State × List (List WPart) :=
  let data := d.flatMap (·.1)
  let (s, l) := s.chunkParts k data (d.flatMap (fun p => List.replicate p.1.length p.2)) (pageCuts (data.length / 2 ^ 21 + 2) va data.length)
  (s, lineGroups l)

/-- The chunk's arithmetic on the partials. -/
def Resum.absorb (r : Resum) (d : List (List Byte × Bool)) : Resum :=
  let els := ((chunksOf 4 4096 (d.flatMap (·.1))).map leNat)
  let (ps, fl) := match resumOp r.instr with
    | 0 => foldRows (sumRow false) r.partials (chunksOf 128 32 els)
    | 1 => foldRows (sumRow true) r.partials (chunksOf 128 32 els)
    | _ => foldRows lseRow r.partials (chunksOf 64 64 els)
  { r with partials := ps, flags := r.flags ||| fl, poison := r.poison || d.any (·.2), data := none }

/-- The chunk takes effect: an MCOPY's writes, or the arithmetic; else the state while the sorting frame holds the writes. -/
def State.chunkEffect (s : State) (k : Nat) (r : Resum) (d : List (List Byte × Bool)) : Except State (State × Resum) :=
  if isCopy r.instr then
    let (dst, _, _) := s.resumArgs k r.instr
    let (s', l) := s.chunkWrites k (dst + 16384 * r.chunk) d
    if s.copyHeld k r.instr r.chunk then .error s
    else if s'.writesGo k l then .ok (s'.writeLines k none l, { r with data := none })
    else .error (s.writeStall k l)
  else .ok (s, r.absorb d)

/-- The result of a wide-precision instruction and whether reading x_t poisoned it (R170 to R172). -/
def State.wideResult (s : State) (k : Nat) (r : Resum) : State × FRes × Bool :=
  let (_, src, n) := s.resumArgs k r.instr
  match resumOp r.instr with
  | 2 => (s, lseResult r.partials, false)
  | 3 =>
    let t := (s.itop k 0).toNat
    let l := lseResult r.partials
    if n ≤ 4 * t then (s, ⟨fmt64.dnan, l.fl ||| fmt64.inv⟩, false)
    else
      let (s, d) := s.chunkData k false (src + 4 * t) 4
      let x := widen32 (leNat (d.flatMap (·.1)))
      let y := fmt64.sub l.v x
      (s, ⟨y.v, l.fl ||| y.fl⟩, d.any (·.2))
  | _ => (s, treeOf fmt64.add 13 (r.partials.map (·.toNat)), false)

/-- Completion: progress cleared, operands popped, the result pushed, the PC past the instruction (R176 item 3). -/
def State.resumDone (s : State) (k : Nat) (r : Resum) : State :=
  let off := progOff r.instr
  let pc := (s.core k).pc
  let n := resumPops r.instr
  let fin := fun (s : State) =>
    ((s.setReg (.cu k) off (bits (s.reg (.cu k) off) 16 4 * 2 ^ 16)).modCore k (fun c => { c with resum := none })).skip k 4
  if isCopy r.instr then fin (s.ipop k n)
  else
    let (s, x, p) := s.wideResult k r
    fin (((s.ipop k n).vpush k (resultSlot 64 x.v (r.poison || p))).raiseArith k pc (r.flags ||| x.fl))

/-- The fault of reading x_t once more after the last chunk (R172, R178). -/
def State.lastFault (s : State) (k : Nat) (r : Resum) : Option Cause :=
  match r.instr with
  | .vxent _ =>
    let (_, src, n) := s.resumArgs k r.instr
    let t := (s.itop k 0).toNat
    if n ≤ 4 * t then none else (s.rangeFaults k false false (src + 4 * t) 4).head?
  | _ => none

/-- Whether the frame lets that read go now. -/
def State.lastGoes (s : State) (k : Nat) (r : Resum) : Bool :=
  match r.instr with
  | .vxent _ =>
    let (_, src, n) := s.resumArgs k r.instr
    let t := (s.itop k 0).toNat
    decide (n ≤ 4 * t) || s.openGoes k (src + 4 * t) 4
  | _ => true

/-- The next chunk, completion, or a stop for a held interrupt or for a core loan that waits for the boundary (R174, R176, R363, R369). DESIGN CHOICE (log 125): a fault of VXENT's read of x_t, which follows the last chunk, stops with NEXT_CHUNK at the number of chunks. -/
def State.chunkNext (s : State) (k : Nat) (h : k < 128) (r : Resum) : State :=
  let (_, _, n) := s.resumArgs k r.instr
  if r.chunk < chunkCount n then
    if (s.interruptNow k).isSome && !s.ihold k && !s.inDf k then
      let s := s.resumStop k r
      match s.takeBoundary k h with
      | some s' => s'
      | none => s
    else if (s.core k).loan.any (fun l => !l.stopped) then s.resumStop k r
    else s.chunkBegin k r
  else
    match s.lastFault k r with
    | some c => if s.masked k 4 then (s.noteMasked k 4).resumDone k r else s.resumFault k r c
    | none => if s.lastGoes k r then s.resumDone k r else s.modCore k (fun c => { c with resum := some r })

/-- RESUMABLE_CHUNK_END (R174, R176): the chunk ends, or the loads it still waits for issue; writes of an MCOPY chunk that fault now abandon it as a read would have. A frozen core's work gives nothing more (R61). -/
def execResumableChunkEnd (k : Fin 128) (s : State) : Host.Outcome State Fault Refusal :=
  .next (
    let h := k.isLt
    let k := k.val
    match (s.core k).resum with
    | none => s
    | some r =>
      if s.frozen (.cu k) || s.ctxFrozen k || !s.pwr.ready then s
      else
        let (dst, _, n) := s.resumArgs k r.instr
        if chunkCount n ≤ r.chunk then s.chunkNext k h r
        else match r.data with
          | none => s.chunkBegin k r
          | some d =>
            let faults := if isCopy r.instr then s.rangeFaults k true false (dst + 16384 * r.chunk) (chunkBytes n r.chunk) else []
            match if s.masked k 4 then none else faults.head? with
            | some c => s.resumFault k r c
            | none =>
              match s.chunkEffect k r d with
              | .ok (s, r) => (if faults.isEmpty then s else s.noteMasked k 4).chunkNext k h { r with chunk := r.chunk + 1 }
              | .error s => s)

end Sys2Proof.Machine
end

