-- ==== Sys2Proof/Machine/Dispatch.lean ====
section
/-! DEFINITION. Every command goes to its meaning: one direct call in each arm. -/
namespace Sys2Proof.Machine

def exec (i : Instr) (s : State) : Host.Outcome State Fault Refusal :=
  match i with
  | .nop x => Sys2Proof.Machine.execNop x s
  | .syscall x code => Sys2Proof.Machine.execSyscall x code s
  | .retx x => Sys2Proof.Machine.execRetx x s
  | .ifence x => Sys2Proof.Machine.execIfence x s
  | .waiti x => Sys2Proof.Machine.execWaiti x s
  | .rdsr x n => Sys2Proof.Machine.execRdsr x n s
  | .wrsr x n => Sys2Proof.Machine.execWrsr x n s
  | .rdpc x => Sys2Proof.Machine.execRdpc x s
  | .pushi x imm => Sys2Proof.Machine.execPushi x imm s
  | .pushu x imm => Sys2Proof.Machine.execPushu x imm s
  | .addi x imm => Sys2Proof.Machine.execAddi x imm s
  | .add x => Sys2Proof.Machine.execAdd x s
  | .sub x => Sys2Proof.Machine.execSub x s
  | .mul x => Sys2Proof.Machine.execMul x s
  | .mulh x => Sys2Proof.Machine.execMulh x s
  | .mulhu x => Sys2Proof.Machine.execMulhu x s
  | .div x => Sys2Proof.Machine.execDiv x s
  | .divu x => Sys2Proof.Machine.execDivu x s
  | .rem x => Sys2Proof.Machine.execRem x s
  | .remu x => Sys2Proof.Machine.execRemu x s
  | .andI x => Sys2Proof.Machine.execAndI x s
  | .orI x => Sys2Proof.Machine.execOrI x s
  | .xorI x => Sys2Proof.Machine.execXorI x s
  | .notI x => Sys2Proof.Machine.execNotI x s
  | .negI x => Sys2Proof.Machine.execNegI x s
  | .shl x => Sys2Proof.Machine.execShl x s
  | .shr x => Sys2Proof.Machine.execShr x s
  | .sar x => Sys2Proof.Machine.execSar x s
  | .minI x => Sys2Proof.Machine.execMinI x s
  | .maxI x => Sys2Proof.Machine.execMaxI x s
  | .minu x => Sys2Proof.Machine.execMinu x s
  | .maxu x => Sys2Proof.Machine.execMaxu x s
  | .sel x pn => Sys2Proof.Machine.execSel x pn s
  | .dup x => Sys2Proof.Machine.execDup x s
  | .drop x => Sys2Proof.Machine.execDrop x s
  | .swap x => Sys2Proof.Machine.execSwap x s
  | .overI x => Sys2Proof.Machine.execOver x s
  | .rot x => Sys2Proof.Machine.execRot x s
  | .nip x => Sys2Proof.Machine.execNip x s
  | .pick x k => Sys2Proof.Machine.execPick x k s
  | .vdup x => Sys2Proof.Machine.execVdup x s
  | .vdrop x => Sys2Proof.Machine.execVdrop x s
  | .vswap x => Sys2Proof.Machine.execVswap x s
  | .vover x => Sys2Proof.Machine.execVover x s
  | .vrot x => Sys2Proof.Machine.execVrot x s
  | .icmp x cc pt => Sys2Proof.Machine.execIcmp x cc pt s
  | .pand x pd pa pb => Sys2Proof.Machine.execPand x pd pa pb s
  | .por x pd pa pb => Sys2Proof.Machine.execPor x pd pa pb s
  | .pxor x pd pa pb => Sys2Proof.Machine.execPxor x pd pa pb s
  | .pandn x pd pa pb => Sys2Proof.Machine.execPandn x pd pa pb s
  | .pnot x pd pa => Sys2Proof.Machine.execPnot x pd pa s
  | .pmov x pd pa => Sys2Proof.Machine.execPmov x pd pa s
  | .pset x pd => Sys2Proof.Machine.execPset x pd s
  | .pclr x pd => Sys2Proof.Machine.execPclr x pd s
  | .br x imm => Sys2Proof.Machine.execBr x imm s
  | .call x imm => Sys2Proof.Machine.execCall x imm s
  | .bri x => Sys2Proof.Machine.execBri x s
  | .calli x => Sys2Proof.Machine.execCalli x s
  | .ld x wd => Sys2Proof.Machine.execLd x wd s
  | .st x wd => Sys2Proof.Machine.execSt x wd s
  | .fld x wd => Sys2Proof.Machine.execFld x wd s
  | .fst x wd => Sys2Proof.Machine.execFst x wd s
  | .dld x wd => Sys2Proof.Machine.execDld x wd s
  | .dst x wd => Sys2Proof.Machine.execDst x wd s
  | .fdld x wd => Sys2Proof.Machine.execFdld x wd s
  | .fdst x wd => Sys2Proof.Machine.execFdst x wd s
  | .fadd x wd => Sys2Proof.Machine.execFadd x wd s
  | .fsub x wd => Sys2Proof.Machine.execFsub x wd s
  | .fmul x wd => Sys2Proof.Machine.execFmul x wd s
  | .fdiv x wd => Sys2Proof.Machine.execFdiv x wd s
  | .ffma x wd => Sys2Proof.Machine.execFfma x wd s
  | .fsqrt x wd => Sys2Proof.Machine.execFsqrt x wd s
  | .fmin x wd => Sys2Proof.Machine.execFmin x wd s
  | .fmax x wd => Sys2Proof.Machine.execFmax x wd s
  | .fneg x wd => Sys2Proof.Machine.execFneg x wd s
  | .fabs x wd => Sys2Proof.Machine.execFabs x wd s
  | .fcmp x wd cc pt => Sys2Proof.Machine.execFcmp x wd cc pt s
  | .cvtif x wd => Sys2Proof.Machine.execCvtif x wd s
  | .cvtfi x wd => Sys2Proof.Machine.execCvtfi x wd s
  | .cvtff x wd => Sys2Proof.Machine.execCvtff x wd s
  | .fmovi x wd => Sys2Proof.Machine.execFmovi x wd s
  | .imovf x wd => Sys2Proof.Machine.execImovf x wd s
  | .vsetvl x => Sys2Proof.Machine.execVsetvl x s
  | .vgetvl x => Sys2Proof.Machine.execVgetvl x s
  | .vzero x => Sys2Proof.Machine.execVzero x s
  | .vld x wd => Sys2Proof.Machine.execVld x wd s
  | .vst x wd => Sys2Proof.Machine.execVst x wd s
  | .vcvtF32K16Lo x se => Sys2Proof.Machine.execVcvtF32K16Lo x se s
  | .vcvtF32K16Hi x se => Sys2Proof.Machine.execVcvtF32K16Hi x se s
  | .vcvtK16F32 x se => Sys2Proof.Machine.execVcvtK16F32 x se s
  | .vcvtF64F32Lo x => Sys2Proof.Machine.execVcvtF64F32Lo x s
  | .vcvtF64F32Hi x => Sys2Proof.Machine.execVcvtF64F32Hi x s
  | .vcvtF32F64 x => Sys2Proof.Machine.execVcvtF32F64 x s
  | .vcvtI32F32 x => Sys2Proof.Machine.execVcvtI32F32 x s
  | .vcvtF32I32 x => Sys2Proof.Machine.execVcvtF32I32 x s
  | .vadd x f => Sys2Proof.Machine.execVadd x f s
  | .vsub x f => Sys2Proof.Machine.execVsub x f s
  | .vmul x f => Sys2Proof.Machine.execVmul x f s
  | .vdiv x f => Sys2Proof.Machine.execVdiv x f s
  | .vfma x f => Sys2Proof.Machine.execVfma x f s
  | .vsqrt x f => Sys2Proof.Machine.execVsqrt x f s
  | .vmin x f => Sys2Proof.Machine.execVmin x f s
  | .vmax x f => Sys2Proof.Machine.execVmax x f s
  | .vneg x f => Sys2Proof.Machine.execVneg x f s
  | .vabs x f => Sys2Proof.Machine.execVabs x f s
  | .vcmp x f cc => Sys2Proof.Machine.execVcmp x f cc s
  | .vsel x f => Sys2Proof.Machine.execVsel x f s
  | .vexp x f => Sys2Proof.Machine.execVexp x f s
  | .vlog x f => Sys2Proof.Machine.execVlog x f s
  | .vrsum x f => Sys2Proof.Machine.execVrsum x f s
  | .vrmax x f => Sys2Proof.Machine.execVrmax x f s
  | .vrmin x f => Sys2Proof.Machine.execVrmin x f s
  | .vbcast x f => Sys2Proof.Machine.execVbcast x f s
  | .vlane x f => Sys2Proof.Machine.execVlane x f s
  | .vins x f => Sys2Proof.Machine.execVins x f s
  | .vslidedn x f => Sys2Proof.Machine.execVslidedn x f s
  | .vslideup x f => Sys2Proof.Machine.execVslideup x f s
  | .viota x f => Sys2Proof.Machine.execViota x f s
  | .vqpop x c => Sys2Proof.Machine.execVqpop x c s
  | .vqpush x c => Sys2Proof.Machine.execVqpush x c s
  | .vwredSum x => Sys2Proof.Machine.execVwredSum x s
  | .vwredSsq x => Sys2Proof.Machine.execVwredSsq x s
  | .vwredLse x => Sys2Proof.Machine.execVwredLse x s
  | .vxent x => Sys2Proof.Machine.execVxent x s
  | .resumableChunkEnd k => Sys2Proof.Machine.execResumableChunkEnd k s
  | .vfold x => Sys2Proof.Machine.execVfold x s
  | .vfoldSave x => Sys2Proof.Machine.execVfoldSave x s
  | .vfoldLoad x => Sys2Proof.Machine.execVfoldLoad x s
  | .mcopy x => Sys2Proof.Machine.execMcopy x s
  | .tcfg x a tile => Sys2Proof.Machine.execTcfg x a tile s
  | .trel x a tile => Sys2Proof.Machine.execTrel x a tile s
  | .trela x => Sys2Proof.Machine.execTrela x s
  | .tzero x a tile => Sys2Proof.Machine.execTzero x a tile s
  | .tquiesce x => Sys2Proof.Machine.execTquiesce x s
  | .tsave x a tile => Sys2Proof.Machine.execTsave x a tile s
  | .trestore x a tile => Sys2Proof.Machine.execTrestore x a tile s
  | .tmove x sa st da dt => Sys2Proof.Machine.execTmove x sa st da dt s
  | .twload x b => Sys2Proof.Machine.execTwload x b s
  | .tstream x b => Sys2Proof.Machine.execTstream x b s
  | .tdrain x b => Sys2Proof.Machine.execTdrain x b s
  | .tfill x a dly opd tile => Sys2Proof.Machine.execTfill x a dly opd tile s
  | .temit x a dly opd tile => Sys2Proof.Machine.execTemit x a dly opd tile s
  | .arrayIssue k a cyc => Sys2Proof.Machine.execArrayIssue k a cyc s
  | .rampStepEnd k a cyc => Sys2Proof.Machine.execRampStepEnd k a cyc s
  | .arrayWindDown k a cyc => Sys2Proof.Machine.execArrayWindDown k a cyc s
  | .tileRowPop k a cyc => Sys2Proof.Machine.execTileRowPop k a cyc s
  | .accumulateRowWrite k a cyc => Sys2Proof.Machine.execAccumulateRowWrite k a cyc s
  | .tdrainComplete k a cyc => Sys2Proof.Machine.execTdrainComplete k a cyc s
  | .drainEntryPush k a cyc => Sys2Proof.Machine.execDrainEntryPush k a cyc s
  | .aepost x => Sys2Proof.Machine.execAepost x s
  | .aewait x => Sys2Proof.Machine.execAewait x s
  | .pref x => Sys2Proof.Machine.execPref x s
  | .aerec x => Sys2Proof.Machine.execAerec x s
  | .aerestart x => Sys2Proof.Machine.execAerestart x s
  | .restartGo ag k n start => Sys2Proof.Machine.execRestartGo ag k n start s
  | .restartAbort ag k n => Sys2Proof.Machine.execRestartAbort ag k n s
  | .descriptorStart k n => Sys2Proof.Machine.execDescriptorStart k n s
  | .loadRowPush k n => Sys2Proof.Machine.execLoadRowPush k n s
  | .storeRow k n => Sys2Proof.Machine.execStoreRow k n s
  | .gatherRowPush k n => Sys2Proof.Machine.execGatherRowPush k n s
  | .descriptorComplete k n => Sys2Proof.Machine.execDescriptorComplete k n s
  | .translationWalk k n => Sys2Proof.Machine.execTranslationWalk k n s
  | .requestIssue k cyc => Sys2Proof.Machine.execRequestIssue k cyc s
  | .readDataReturn k j => Sys2Proof.Machine.execReadDataReturn k j s
  | .trayFillArrival k j => Sys2Proof.Machine.execTrayFillArrival k j s
  | .writeAccepted k j => Sys2Proof.Machine.execWriteAccepted k j s
  | .fence x => Sys2Proof.Machine.execFence x s
  | .fenceAe x => Sys2Proof.Machine.execFenceAe x s
  | .acquire x => Sys2Proof.Machine.execAcquire x s
  | .mcinv x => Sys2Proof.Machine.execMcinv x s
  | .mccln x => Sys2Proof.Machine.execMccln x s
  | .mccli x => Sys2Proof.Machine.execMccli x s
  | .mcinvAll x => Sys2Proof.Machine.execMcinvAll x s
  | .mcclnAll x => Sys2Proof.Machine.execMcclnAll x s
  | .trayinv x => Sys2Proof.Machine.execTrayinv x s
  | .xinv x => Sys2Proof.Machine.execXinv x s
  | .xinvA x => Sys2Proof.Machine.execXinvA x s
  | .maintMcinvAll ag k => Sys2Proof.Machine.execMaintMcinvAll ag k s
  | .maintMcclnAll ag k => Sys2Proof.Machine.execMaintMcclnAll ag k s
  | .maintTrayinv ag k => Sys2Proof.Machine.execMaintTrayinv ag k s
  | .maintenanceComplete k => Sys2Proof.Machine.execMaintenanceComplete k s
  | .mcacheEnableWrite ag k v => Sys2Proof.Machine.execMcacheEnableWrite ag k v s
  | .aeXlateInv ag k => Sys2Proof.Machine.execAeXlateInv ag k s
  | .aeQflush ag k v => Sys2Proof.Machine.execAeQflush ag k v s
  | .arrive x => Sys2Proof.Machine.execArrive x s
  | .depart x => Sys2Proof.Machine.execDepart x s
  | .wait x => Sys2Proof.Machine.execWait x s
  | .signalAt x => Sys2Proof.Machine.execSignalAt x s
  | .sreset x => Sys2Proof.Machine.execSreset x s
  | .sread x => Sys2Proof.Machine.execSread x s
  | .rdpm x => Sys2Proof.Machine.execRdpm x s
  | .swaitT x => Sys2Proof.Machine.execSwaitT x s
  | .tstartAt x a => Sys2Proof.Machine.execTstartAt x a s
  | .tstartLaunch k a now => Sys2Proof.Machine.execTstartLaunch k a now s
  | .syncOpPerform k => Sys2Proof.Machine.execSyncOpPerform k s
  | .waitWake who => Sys2Proof.Machine.execWaitWake who s
  | .syncTimerFire d j now => Sys2Proof.Machine.execSyncTimerFire d j now s
  | .lendLowPowerEntry k now => Sys2Proof.Machine.execLendLowPowerEntry k now s
  | .swaitLendExit k now => Sys2Proof.Machine.execSwaitLendExit k now s
  | .detectorReport d now => Sys2Proof.Machine.execDetectorReport d now s
  | .deadlock c now => Sys2Proof.Machine.execDeadlock c now s
  | .syncDumpDone c => Sys2Proof.Machine.execSyncDumpDone c s
  | .intTimer k now => Sys2Proof.Machine.execIntTimer k now s
  | .causeEntry k => Sys2Proof.Machine.execCauseEntry k s
  | .coreDoorbell ag k v => Sys2Proof.Machine.execCoreDoorbell ag k v s
  | .plainRegisterWrite ag off v => Sys2Proof.Machine.execPlainRegisterWrite ag off v s
  | .setAliasWrite ag a v => Sys2Proof.Machine.execSetAliasWrite ag a v s
  | .clearAliasWrite ag a v => Sys2Proof.Machine.execClearAliasWrite ag a v s
  | .toggleAliasWrite ag a v => Sys2Proof.Machine.execToggleAliasWrite ag a v s
  | .statusRegisterWrite ag off v => Sys2Proof.Machine.execStatusRegisterWrite ag off v s
  | .capturingLowRead ag off => Sys2Proof.Machine.execCapturingLowRead ag off s
  | .counterWrite ag off v => Sys2Proof.Machine.execCounterWrite ag off v s
  | .poweredDownTimeout ag off wr => Sys2Proof.Machine.execPoweredDownTimeout ag off wr s
  | .parityScrub off => Sys2Proof.Machine.execParityScrub off s
  | .foldSeedWrite ag k v => Sys2Proof.Machine.execFoldSeedWrite ag k v s
  | .arrayRampWrite ag k a v => Sys2Proof.Machine.execArrayRampWrite ag k a v s
  | .ptbFlipGo ag d v => Sys2Proof.Machine.execPtbFlipGo ag d v s
  | .strongroomWrite ag off v => Sys2Proof.Machine.execStrongroomWrite ag off v s
  | .upeRingEnableWrite ag e c v => Sys2Proof.Machine.execUpeRingEnableWrite ag e c v s
  | .evtRingEnableWrite ag f v => Sys2Proof.Machine.execEvtRingEnableWrite ag f v s
  | .upeTake e c => Sys2Proof.Machine.execUpeTake e c s
  | .upeChunk e c => Sys2Proof.Machine.execUpeChunk e c s
  | .upeLayerComplete e c => Sys2Proof.Machine.execUpeLayerComplete e c s
  | .ckptAckTimeout e c now => Sys2Proof.Machine.execCkptAckTimeout e c now s
  | .flitSend p now => Sys2Proof.Machine.execFlitSend p now s
  | .flitReceive p flit => Sys2Proof.Machine.execFlitReceive p flit s
  | .lctl p => Sys2Proof.Machine.execLctl p s
  | .laneDegraded p l cause => Sys2Proof.Machine.execLaneDegraded p l cause s
  | .portUp p lanes tr => Sys2Proof.Machine.execPortUp p lanes tr s
  | .trainingTimeout p now => Sys2Proof.Machine.execTrainingTimeout p now s
  | .trainingRetry p now => Sys2Proof.Machine.execTrainingRetry p now s
  | .lnkEnableWrite ag p v => Sys2Proof.Machine.execLnkEnableWrite ag p v s
  | .ltrainRetrain ag p l now => Sys2Proof.Machine.execLtrainRetrain ag p l now s
  | .marginStart ag p l => Sys2Proof.Machine.execMarginStart ag p l s
  | .marginDone p l eyeH eyeW => Sys2Proof.Machine.execMarginDone p l eyeH eyeW s
  | .write p => Sys2Proof.Machine.execWrite p s
  | .writeRed p => Sys2Proof.Machine.execWriteRed p s
  | .read p => Sys2Proof.Machine.execRead p s
  | .readData p => Sys2Proof.Machine.execReadData p s
  | .ack p => Sys2Proof.Machine.execAck p s
  | .refuse p => Sys2Proof.Machine.execRefuse p s
  | .arriveMessage p => Sys2Proof.Machine.execArriveMessage p s
  | .eventMessage p => Sys2Proof.Machine.execEventMessage p s
  | .pmReq p now => Sys2Proof.Machine.execPmReq p now s
  | .pmRsp p now => Sys2Proof.Machine.execPmRsp p now s
  | .pmReqSend now => Sys2Proof.Machine.execPmReqSend now s
  | .pmUnlocked now => Sys2Proof.Machine.execPmUnlocked now s
  | .stageTake d c => Sys2Proof.Machine.execStageTake d c s
  | .stageLaunch d c now => Sys2Proof.Machine.execStageLaunch d c now s
  | .stageComplete d c => Sys2Proof.Machine.execStageComplete d c s
  | .stageMessageTimeout d c now => Sys2Proof.Machine.execStageMessageTimeout d c now s
  | .ceSeedWrite ag d c v => Sys2Proof.Machine.execCeSeedWrite ag d c v s
  | .bar2Read fn addr len => Sys2Proof.Machine.execBar2Read fn addr len s
  | .bar2Write fn addr data poisoned => Sys2Proof.Machine.execBar2Write fn addr data poisoned s
  | .functionLevelReset fn => Sys2Proof.Machine.execFunctionLevelReset fn s
  | .vfDisable => Sys2Proof.Machine.execVfDisable s
  | .watchPoll fn n now => Sys2Proof.Machine.execWatchPoll fn n now s
  | .lbSubmit fn => Sys2Proof.Machine.execLbSubmit fn s
  | .lbAck fn => Sys2Proof.Machine.execLbAck fn s
  | .smbReadStatus => Sys2Proof.Machine.execSmbReadStatus s
  | .smbBlockWrite data => Sys2Proof.Machine.execSmbBlockWrite data s
  | .smbSubmit => Sys2Proof.Machine.execSmbSubmit s
  | .smbBlockRead len => Sys2Proof.Machine.execSmbBlockRead len s
  | .smbReplyAck => Sys2Proof.Machine.execSmbReplyAck s
  | .smbDiscard => Sys2Proof.Machine.execSmbDiscard s
  | .smbAlertResponse => Sys2Proof.Machine.execSmbAlertResponse s
  | .coreLoan via => Sys2Proof.Machine.execCoreLoan via s
  | .loanQuiesceTimeout k now => Sys2Proof.Machine.execLoanQuiesceTimeout k now s
  | .granuleLoan via => Sys2Proof.Machine.execGranuleLoan via s
  | .syncLoan via => Sys2Proof.Machine.execSyncLoan via s
  | .shareSet via => Sys2Proof.Machine.execShareSet via s
  | .catRead via => Sys2Proof.Machine.execCatRead via s
  | .siteSwap via selfTestOk => Sys2Proof.Machine.execSiteSwap via selfTestOk s
  | .selfId via => Sys2Proof.Machine.execSelfId via s
  | .selfRank via => Sys2Proof.Machine.execSelfRank via s
  | .linkJob via => Sys2Proof.Machine.execLinkJob via s
  | .routeSet via => Sys2Proof.Machine.execRouteSet via s
  | .routeAlias via => Sys2Proof.Machine.execRouteAlias via s
  | .routeRead via => Sys2Proof.Machine.execRouteRead via s
  | .pmSource via => Sys2Proof.Machine.execPmSource via s
  | .linkRetrain via => Sys2Proof.Machine.execLinkRetrain via s
  | .pmStep via => Sys2Proof.Machine.execPmStep via s
  | .moduleReset via => Sys2Proof.Machine.execModuleReset via s
  | .regionReset via => Sys2Proof.Machine.execRegionReset via s
  | .contextReset via => Sys2Proof.Machine.execContextReset via s
  | .contextResume via => Sys2Proof.Machine.execContextResume via s
  | .coreRelease via => Sys2Proof.Machine.execCoreRelease via s
  | .recover via => Sys2Proof.Machine.execRecover via s
  | .blockReset via => Sys2Proof.Machine.execBlockReset via s
  | .ckptScan via => Sys2Proof.Machine.execCkptScan via s
  | .syncDump via => Sys2Proof.Machine.execSyncDump via s
  | .deadletterRead via => Sys2Proof.Machine.execDeadletterRead via s
  | .powerLimit via => Sys2Proof.Machine.execPowerLimit via s
  | .powerRead via => Sys2Proof.Machine.execPowerRead via s
  | .srmRead via => Sys2Proof.Machine.execSrmRead via s
  | .srmUpdate via => Sys2Proof.Machine.execSrmUpdate via s
  | .fwUpdate via => Sys2Proof.Machine.execFwUpdate via s
  | .nonvolatileWriteDone => Sys2Proof.Machine.execNonvolatileWriteDone s
  | .fwActivate via => Sys2Proof.Machine.execFwActivate via s
  | .fwInfo via => Sys2Proof.Machine.execFwInfo via s
  | .testEnable via => Sys2Proof.Machine.execTestEnable via s
  | .testDisable via => Sys2Proof.Machine.execTestDisable via s
  | .hostStatus via => Sys2Proof.Machine.execHostStatus via s
  | .echo via => Sys2Proof.Machine.execEcho via s
  | .standbyPowerOn => Sys2Proof.Machine.execStandbyPowerOn s
  | .inputQualified now mv => Sys2Proof.Machine.execInputQualified now mv s
  | .railsGood => Sys2Proof.Machine.execRailsGood s
  | .perst assert => Sys2Proof.Machine.execPerst assert s
  | .moduleResetStart => Sys2Proof.Machine.execModuleResetStart s
  | .moduleReady => Sys2Proof.Machine.execModuleReady s
  | .srmSample m => Sys2Proof.Machine.execSrmSample m s
  | .clampRelease now => Sys2Proof.Machine.execClampRelease now s
  | .moduleArbitration m => Sys2Proof.Machine.execModuleArbitration m s
  | .blockGating d b now events g => Sys2Proof.Machine.execBlockGating d b now events g s
  | .regionClockChange d step now => Sys2Proof.Machine.execRegionClockChange d step now s
  | .conservatorReplan d now => Sys2Proof.Machine.execConservatorReplan d now s
  | .csvReplanRequest ag d => Sys2Proof.Machine.execCsvReplanRequest ag d s
  | .slackMeasurementDone d now slacks => Sys2Proof.Machine.execSlackMeasurementDone d now slacks s
  | .clockLost d => Sys2Proof.Machine.execClockLost d s
  | .stackTempReport d j degC => Sys2Proof.Machine.execStackTempReport d j degC s
  | .memoryUncorrectable pa => Sys2Proof.Machine.execMemoryUncorrectable pa s
  | .eccCorrected src count => Sys2Proof.Machine.execEccCorrected src count s
  | .hopForward hop => Sys2Proof.Machine.execHopForward hop s
  | .rootRingWrite => Sys2Proof.Machine.execRootRingWrite s
  | .consumerPoll f => Sys2Proof.Machine.execConsumerPoll f s
  | .counterSnapshot d now => Sys2Proof.Machine.execCounterSnapshot d now s
  | .reservedOpcode k w0 w1 w2 w3 => Sys2Proof.Machine.execReservedOpcode k w0 w1 w2 w3 s
  | .intMgmt k => Sys2Proof.Machine.execIntMgmt k s
  | .doubleBitError k store => Sys2Proof.Machine.execDoubleBitError k store s
  | .controlStoreUncorrectable store => Sys2Proof.Machine.execControlStoreUncorrectable store s
  | .cacheParityError k store => Sys2Proof.Machine.execCacheParityError k store s
  | .errorCheckAndScrub d j => Sys2Proof.Machine.execErrorCheckAndScrub d j s
  | .refreshOverrun d j => Sys2Proof.Machine.execRefreshOverrun d j s
  | .parityMismatchRead ag off => Sys2Proof.Machine.execParityMismatchRead ag off s
  | .vfEnable n => Sys2Proof.Machine.execVfEnable n s
  | .bar2Resize vf gib => Sys2Proof.Machine.execBar2Resize vf gib s
  | .moantRunning => Sys2Proof.Machine.execMoantRunning s

end Sys2Proof.Machine
end

