-- ==== Sys2Proof/WellFormed.lean ====
section
/-! DEFINITION. Well-formed commands: fields of an instruction that its encoding admits, operands that the interface admits. -/
namespace Sys2Proof

/-- VEXP and VLOG have no K16 form (R162). -/
def laneFloat : LaneFormat → Bool
  | .f32 => true
  | .f64 => true
  | .k16 => false

/-- Register offsets are multiples of 4 (R49). -/
def wordAligned (off : BitVec 28) : Bool := decide (off.toNat % 4 = 0)

/-- Whether a command is well formed: `exec` gives every command a meaning, an ill-formed instruction that of a reserved encoding. -/
def Instr.wellFormed : Instr → Bool
  | .nop _ => true
  | .syscall _ _ => true
  | .retx _ => true
  | .ifence _ => true
  | .waiti _ => true
  | .rdsr _ _ => true
  | .wrsr _ _ => true
  | .rdpc _ => true
  | .pushi _ _ => true
  | .pushu _ _ => true
  | .addi _ _ => true
  | .add _ => true
  | .sub _ => true
  | .mul _ => true
  | .mulh _ => true
  | .mulhu _ => true
  | .div _ => true
  | .divu _ => true
  | .rem _ => true
  | .remu _ => true
  | .andI _ => true
  | .orI _ => true
  | .xorI _ => true
  | .notI _ => true
  | .negI _ => true
  | .shl _ => true
  | .shr _ => true
  | .sar _ => true
  | .minI _ => true
  | .maxI _ => true
  | .minu _ => true
  | .maxu _ => true
  | .sel _ _ => true
  | .dup _ => true
  | .drop _ => true
  | .swap _ => true
  | .overI _ => true
  | .rot _ => true
  | .nip _ => true
  | .pick _ _ => true
  | .vdup _ => true
  | .vdrop _ => true
  | .vswap _ => true
  | .vover _ => true
  | .vrot _ => true
  | .icmp _ cc _ => decide (cc.toNat < 10)
  | .pand _ _ _ _ => true
  | .por _ _ _ _ => true
  | .pxor _ _ _ _ => true
  | .pandn _ _ _ _ => true
  | .pnot _ _ _ => true
  | .pmov _ _ _ => true
  | .pset _ _ => true
  | .pclr _ _ => true
  | .br _ _ => true
  | .call _ _ => true
  | .bri _ => true
  | .calli _ => true
  | .ld _ _ => true
  | .st _ _ => true
  | .fld _ _ => true
  | .fst _ _ => true
  | .dld _ _ => true
  | .dst _ _ => true
  | .fdld _ _ => true
  | .fdst _ _ => true
  | .fadd _ _ => true
  | .fsub _ _ => true
  | .fmul _ _ => true
  | .fdiv _ _ => true
  | .ffma _ _ => true
  | .fsqrt _ _ => true
  | .fmin _ _ => true
  | .fmax _ _ => true
  | .fneg _ _ => true
  | .fabs _ _ => true
  | .fcmp _ _ cc _ => decide (cc.toNat < 8)
  | .cvtif _ _ => true
  | .cvtfi _ _ => true
  | .cvtff _ _ => true
  | .fmovi _ _ => true
  | .imovf _ _ => true
  | .vsetvl _ => true
  | .vgetvl _ => true
  | .vzero _ => true
  | .vld _ _ => true
  | .vst _ _ => true
  | .vcvtF32K16Lo _ _ => true
  | .vcvtF32K16Hi _ _ => true
  | .vcvtK16F32 _ _ => true
  | .vcvtF64F32Lo _ => true
  | .vcvtF64F32Hi _ => true
  | .vcvtF32F64 _ => true
  | .vcvtI32F32 _ => true
  | .vcvtF32I32 _ => true
  | .vadd _ _ => true
  | .vsub _ _ => true
  | .vmul _ _ => true
  | .vdiv _ _ => true
  | .vfma _ _ => true
  | .vsqrt _ _ => true
  | .vmin _ _ => true
  | .vmax _ _ => true
  | .vneg _ _ => true
  | .vabs _ _ => true
  | .vcmp _ _ cc => decide (cc.toNat < 8)
  | .vsel _ _ => true
  | .vexp _ f => laneFloat f
  | .vlog _ f => laneFloat f
  | .vrsum _ _ => true
  | .vrmax _ _ => true
  | .vrmin _ _ => true
  | .vbcast _ _ => true
  | .vlane _ _ => true
  | .vins _ _ => true
  | .vslidedn _ _ => true
  | .vslideup _ _ => true
  | .viota _ _ => true
  | .vqpop _ c => decide (c.toNat < 3)
  | .vqpush _ c => decide (c.toNat < 3)
  | .vwredSum _ => true
  | .vwredSsq _ => true
  | .vwredLse _ => true
  | .vxent _ => true
  | .resumableChunkEnd _ => true
  | .vfold _ => true
  | .vfoldSave _ => true
  | .vfoldLoad _ => true
  | .mcopy _ => true
  | .tcfg _ _ tile => decide (tile.toNat < 10)
  | .trel _ _ tile => decide (tile.toNat < 10)
  | .trela _ => true
  | .tzero _ _ tile => decide (tile.toNat < 10)
  | .tquiesce _ => true
  | .tsave _ _ tile => decide (tile.toNat < 10)
  | .trestore _ _ tile => decide (tile.toNat < 10)
  | .tmove _ _ _ _ _ => true
  | .twload _ b => b.legal
  | .tstream _ b => b.legal
  | .tdrain _ b => b.legal
  | .tfill _ _ _ opd _ => opdHead opd
  | .temit _ _ _ opd _ => opdTail opd
  | .arrayIssue _ _ _ => true
  | .rampStepEnd _ _ _ => true
  | .arrayWindDown _ _ _ => true
  | .tileRowPop _ _ _ => true
  | .accumulateRowWrite _ _ _ => true
  | .tdrainComplete _ _ _ => true
  | .drainEntryPush _ _ _ => true
  | .aepost _ => true
  | .aewait _ => true
  | .pref _ => true
  | .aerec _ => true
  | .aerestart _ => true
  | .restartGo _ _ _ _ => true
  | .restartAbort _ _ _ => true
  | .descriptorStart _ _ => true
  | .loadRowPush _ _ => true
  | .storeRow _ _ => true
  | .gatherRowPush _ _ => true
  | .descriptorComplete _ _ => true
  | .translationWalk _ _ => true
  | .requestIssue _ _ => true
  | .readDataReturn _ _ => true
  | .trayFillArrival _ _ => true
  | .writeAccepted _ _ => true
  | .fence _ => true
  | .fenceAe _ => true
  | .acquire _ => true
  | .mcinv _ => true
  | .mccln _ => true
  | .mccli _ => true
  | .mcinvAll _ => true
  | .mcclnAll _ => true
  | .trayinv _ => true
  | .xinv _ => true
  | .xinvA _ => true
  | .maintMcinvAll _ _ => true
  | .maintMcclnAll _ _ => true
  | .maintTrayinv _ _ => true
  | .maintenanceComplete _ => true
  | .mcacheEnableWrite _ _ _ => true
  | .aeXlateInv _ _ => true
  | .aeQflush _ _ _ => true
  | .arrive _ => true
  | .depart _ => true
  | .wait _ => true
  | .signalAt _ => true
  | .sreset _ => true
  | .sread _ => true
  | .rdpm _ => true
  | .swaitT _ => true
  | .tstartAt _ _ => true
  | .tstartLaunch _ _ _ => true
  | .syncOpPerform _ => true
  | .waitWake _ => true
  | .syncTimerFire _ j _ => decide (j < 256)
  | .lendLowPowerEntry _ _ => true
  | .swaitLendExit _ _ => true
  | .detectorReport _ _ => true
  | .deadlock _ _ => true
  | .syncDumpDone _ => true
  | .intTimer _ _ => true
  | .causeEntry _ => true
  | .coreDoorbell _ _ _ => true
  | .plainRegisterWrite _ a _ => a.size != 0
  | .setAliasWrite _ _ _ => true
  | .clearAliasWrite _ _ _ => true
  | .toggleAliasWrite _ _ _ => true
  | .statusRegisterWrite _ off _ => wordAligned off
  | .capturingLowRead _ a => a.size != 0
  | .counterWrite _ off _ => wordAligned off
  | .poweredDownTimeout _ off _ => wordAligned off
  | .parityScrub off => wordAligned off
  | .foldSeedWrite _ _ _ => true
  | .arrayRampWrite _ _ _ _ => true
  | .ptbFlipGo _ _ _ => true
  | .strongroomWrite _ off _ => wordAligned off
  | .upeRingEnableWrite _ _ _ _ => true
  | .evtRingEnableWrite _ _ _ => true
  | .upeTake _ _ => true
  | .upeChunk _ _ => true
  | .upeLayerComplete _ _ => true
  | .ckptAckTimeout _ _ _ => true
  | .flitSend _ _ => true
  | .flitReceive _ _ => true
  | .lctl _ => true
  | .laneDegraded _ _ _ => true
  | .portUp _ _ tr => decide (tr.shells.length = 8)
  | .trainingTimeout _ _ => true
  | .trainingRetry _ _ => true
  | .lnkEnableWrite _ _ _ => true
  | .ltrainRetrain _ _ _ _ => true
  | .marginStart _ _ _ => true
  | .marginDone _ _ _ _ => true
  | .write _ => true
  | .writeRed _ => true
  | .read _ => true
  | .readData _ => true
  | .ack _ => true
  | .refuse _ => true
  | .arriveMessage _ => true
  | .eventMessage _ => true
  | .pmReq _ _ => true
  | .pmRsp _ _ => true
  | .pmReqSend _ => true
  | .pmUnlocked _ => true
  | .stageTake _ _ => true
  | .stageLaunch _ _ _ => true
  | .stageComplete _ _ => true
  | .stageMessageTimeout _ _ _ => true
  | .ceSeedWrite _ _ _ _ => true
  | .bar2Read _ _ len => decide (1 ≤ len) && decide (len ≤ 4096)
  | .bar2Write _ _ data _ => decide (1 ≤ data.length) && decide (data.length ≤ 512)
  | .functionLevelReset _ => true
  | .vfDisable => true
  | .watchPoll _ _ _ => true
  | .lbSubmit _ => true
  | .lbAck _ => true
  | .smbReadStatus => true
  | .smbBlockWrite t => decide (1 ≤ t.data.length) && decide (t.data.length ≤ 255)
  | .smbSubmit => true
  | .smbBlockRead len => decide (1 ≤ len) && decide (len ≤ 255)
  | .smbReplyAck => true
  | .smbDiscard => true
  | .smbAlertResponse => true
  | .coreLoan _ => true
  | .loanQuiesceTimeout _ _ => true
  | .granuleLoan _ => true
  | .syncLoan _ => true
  | .shareSet _ => true
  | .catRead _ => true
  | .siteSwap _ _ => true
  | .selfId _ => true
  | .selfRank _ => true
  | .linkJob _ => true
  | .routeSet _ => true
  | .routeAlias _ => true
  | .routeRead _ => true
  | .pmSource _ => true
  | .linkRetrain _ => true
  | .pmStep _ => true
  | .moduleReset _ => true
  | .regionReset _ => true
  | .contextReset _ => true
  | .contextResume _ => true
  | .coreRelease _ => true
  | .recover _ => true
  | .blockReset _ => true
  | .ckptScan _ => true
  | .syncDump _ => true
  | .deadletterRead _ => true
  | .powerLimit _ => true
  | .powerRead _ => true
  | .srmRead _ => true
  | .srmUpdate _ => true
  | .fwUpdate _ => true
  | .nonvolatileWriteDone => true
  | .fwActivate _ => true
  | .fwInfo _ => true
  | .testEnable _ => true
  | .testDisable _ => true
  | .hostStatus _ => true
  | .echo _ => true
  | .standbyPowerOn => true
  | .inputQualified _ _ => true
  | .railsGood => true
  | .perst _ => true
  | .moduleResetStart => true
  | .moduleReady => true
  | .srmSample m => decide (m.regionW.length = 8)
  | .clampRelease _ => true
  | .moduleArbitration m => decide (m.demand.length = 8) && decide (m.junction.length = 8) && decide (m.rails.length = 20)
  | .blockGating _ _ _ events _ => decide (events.length = 32)
  | .regionClockChange _ _ _ => true
  | .conservatorReplan _ _ => true
  | .csvReplanRequest _ _ => true
  | .slackMeasurementDone _ _ slacks => decide (slacks.length = 17)
  | .clockLost _ => true
  | .stackTempReport _ _ _ => true
  | .memoryUncorrectable pa => decide (pa.toNat < 0x14000000000)
  | .eccCorrected _ _ => true
  | .hopForward _ => true
  | .rootRingWrite => true
  | .consumerPoll _ => true
  | .counterSnapshot _ _ => true
  | .reservedOpcode k w0 w1 w2 w3 => decide (decodeCore k true w0 w1 w2 w3 = none)
  | .intMgmt _ => true
  | .doubleBitError _ _ => true
  | .controlStoreUncorrectable _ => true
  | .cacheParityError _ _ => true
  | .errorCheckAndScrub _ _ => true
  | .refreshOverrun _ _ => true
  | .parityMismatchRead _ off => wordAligned off
  | .vfEnable n => decide (1 ≤ n.toNat)
  | .bar2Resize _ gib => [1, 2, 4, 8, 16, 32, 64].contains gib
  | .moantRunning => true

end Sys2Proof
end

