-- ==== Sys2Proof/Safety.lean ====
section
/-! DEFINITION. The terms in which claims are stated: when a core issues an instruction and what an issued instruction leaves behind, when a docket runs, what stays canonical in every state. -/
namespace Sys2Proof.Machine

/-! ## Core instructions -/

/-- The core of `i` comes to issue with nothing in the way: it is present and not stopped, frozen or inside a chunk, no cause is to be taken at this boundary, no tile instruction in precise mode holds it, and the guard lets the instruction execute (R132, R254, R351, R363). -/
def State.issuesNow (s : State) (i : Issue) : Prop :=
  s.atBoundary i.core.val = true ∧ s.boundaryCause i.core.val = none ∧ (s.core i.core.val).tileHold = false ∧
    (s.predBit i.core.val i.g.toNat == i.s) = false

/-- The operands of an instruction that pops `p` and pushes `q` integers, and pops `vp` and pushes `vq` slots, are on the core, and its results fit there (R111, R116): it issues without spill or fill. -/
def State.onCore (s : State) (k p q vp vq : Nat) : Prop :=
  p ≤ (s.core k).istk.length ∧ (s.core k).istk.length - p + q ≤ 32 ∧ vp ≤ (s.core k).vstk.length ∧ (s.core k).vstk.length - vp + vq ≤ 16

/-- The integer stack of a core replaced, its top first. -/
def State.withInts (s : State) (k : Nat) (l : List W64) : State := s.modCore k (fun c => { c with istk := l })
/-- The V-stack of a core replaced, its top first. -/
def State.withSlots (s : State) (k : Nat) (l : List VSlot) : State := s.modCore k (fun c => { c with vstk := l })

/-- An instruction has issued on the core of `i` and left these stacks, its top entry first: it no longer waits, and CORE_ISSUED counts it (R131, R316, R532). The PC still stands at it. -/
def State.landed (s : State) (i : Issue) (ints : List W64) (slots : List VSlot) : State :=
  ((s.issued i.core.val i.core.isLt).withInts i.core.val ints).withSlots i.core.val slots

/-- The same with the PC past the instruction of `len` bytes. -/
def State.after (s : State) (i : Issue) (ints : List W64) (slots : List VSlot) (len : Nat := 4) : State :=
  (s.landed i ints slots).skip i.core.val len

/-! ## Dockets -/

/-- Docket `b` of interface `v` is next to be executed for opcode `op`: it is accepted and unanswered, well formed, permitted, and no earlier docket conflicts with it (R475 to R479). -/
def State.docketRuns (s : State) (v : Via) (op : Nat) (b : List Byte) : Prop :=
  s.host.dockets.find? (fun d => d.via == v) = some ⟨v, b, false⟩ ∧ dOpcode b = op ∧ s.docketCheck v b = none ∧ s.mayRun v = true

/-! ## Accesses of device memory -/

/-- No access that `f` makes is held at a frozen stack controller (R61). -/
def State.serves (s : State) (f : State → State) : Prop := (f { s with blocked := false }).blocked = false

/-! ## Numbers -/

/-- The value of a finite number. -/
def Num.value : Num → Rat
  | .fin neg m e => (if neg then -1 else 1) * (m : Rat) * (2 : Rat) ^ e
  | _ => 0

/-- Whether an encoding is a finite number. -/
def Num.isFin : Num → Bool
  | .fin _ _ _ => true
  | _ => false

/-- Whether it is a NaN. -/
def Num.isNan : Num → Bool
  | .nan _ => true
  | _ => false

/-- Of all values `w` of a set, `x` is nearest to `v`, and of two nearest it is the one with an even encoding (R91). -/
def nearest (among : Rat → Prop) (even : Prop) (x v : Rat) : Prop :=
  ∀ w, among w → (x - v).abs ≤ (w - v).abs ∧ ((w - v).abs = (x - v).abs → w = x ∨ even)

/-- `r` is the nonzero number `v` rounded to a format with its flags (R86, R87, R91): from half a unit beyond the largest finite magnitude on an infinity; else the nearest finite value, inexact when it is not `v`, and with underflow when it would lie below the smallest normal magnitude even with an unbounded exponent. -/
def Fmt.rounds (f : Fmt) (v : Rat) (r : FRes) : Prop :=
  let ones : Rat := (2 : Rat) ^ ((f.frac : Int) + 2) - 1
  let x := (f.num r.v).value
  if ones * (2 : Rat) ^ ((f.bias : Int) - f.frac - 1) ≤ v.abs then r = ⟨f.signed (decide (v < 0)) f.infBits, f.ovf + f.inx⟩
  else (f.num r.v).isFin = true ∧ r.v < 2 * f.signBit ∧ f.neg r.v = decide (v < 0)
    ∧ nearest (fun w => ∃ y, (f.num y).isFin = true ∧ (f.num y).value = w) (r.v % 2 = 0) x v
    ∧ r.fl = if x = v then 0 else f.inx + if v.abs < ones * (2 : Rat) ^ (-1 - (f.bias : Int) - f.frac) then f.unf else 0

/-- `r` is the nonzero number `v` converted to the short format with `frac` fraction bits (10 for K16, 6 for K12) by the table of R92. -/
def kConverts (frac : Nat) (v : Rat) (r : FRes) : Prop :=
  let sign := fun (x : Nat) => kSigned frac (decide (v < 0)) x
  let x := (kNum frac r.v).value
  if (2 : Rat) ^ (17 : Int) - (2 : Rat) ^ (15 - (frac : Int)) ≤ v.abs then r = ⟨sign (kMax frac), kOvf⟩
  else if v.abs ≤ (2 : Rat) ^ (-15 - (frac : Int)) then r = ⟨sign 0, kUnf⟩
  else r.fl = 0 ∧ r.v < 2 ^ (frac + 6) ∧ r.v.testBit (frac + 5) = decide (v < 0)
    ∧ nearest (fun w => ∃ y, (kNum frac y).value = w) (r.v % 2 = 0) x v

/-- `x` is the square root of `v` rounded to the nearest of a set of values. -/
def nearestRoot (among : Rat → Prop) (even : Prop) (x v : Rat) : Prop :=
  0 ≤ x ∧ ∀ w, among w → 0 ≤ w →
    (w < x → (w + x) * (w + x) ≤ 4 * v ∧ ((w + x) * (w + x) = 4 * v → even)) ∧ (x < w → 4 * v ≤ (w + x) * (w + x) ∧ ((w + x) * (w + x) = 4 * v → even))

/-! ## What every state keeps -/

/-- Every core's data memory is in its canonical form. -/
def dmemsWf (t : Tbl Nat Core) : Bool := t.all (fun e => Memory.wf e.2.dmem)

/-- Device memory and every core data memory are in their canonical form. -/
def State.memoryWf (s : State) : Prop := Memory.wf s.mem = true ∧ dmemsWf s.cores = true

end Sys2Proof.Machine
end

