-- ==== Sys2Proof/Certificates/Slice0/Obligations.lean ====
section
/-! DEFINITION. The statements of this model: what each command and the whole machine do, by the rules of the spec. -/

open Sys2Proof Sys2Proof.Machine

/-! ## The queue, reset, the words of the core instructions -/

/-- A step is the front command on the state with the rest of the queue. -/
def Obligations.StepRunsFront : Prop :=
  ∀ (c : Instr) (rest : List Instr) (s : State), s.pending = c :: rest → step s = exec c { s with pending := rest }

/-- Every word sequence that a well-formed core instruction is encoded in decodes to that instruction, with every operand at every value its encoding admits. -/
def Obligations.CoreWordsRoundTrip : Prop :=
  ∀ (ins : Instr) (ws : List W32), ins.wellFormed = true → encode ins = some ws → ∃ k : Fin 128,
    (∃ w, ws = [w] ∧ ∀ al w1 w2 w3, decodeCore k al w w1 w2 w3 = some ins)
    ∨ ∃ w0 w1 w2 w3, ws = [w0, w1, w2, w3] ∧ decodeCore k true w0 w1 w2 w3 = some ins

/-- Each defined word sequence has one meaning: what decodes to an instruction is that instruction's encoding, a bundle in all its four words, so no reserved encoding falls through to a neighbour; a bundle decodes on a multiple of 16 only (R131, R135, R150, R236 to R242). Words written out from the encodings of the spec decode to what they stand for, and reserved words to nothing (R137, R138, R140, R161, R256). -/
def Obligations.DecodedWordIsEncoding : Prop :=
  (∀ (k : Fin 128) (w : W32) (ins : Instr), decodeWord k w = some ins → encode ins = some [w])
  ∧ (∀ (k : Fin 128) (al : Bool) (w0 w1 w2 w3 : W32) (ins : Instr), decodeCore k al w0 w1 w2 w3 = some ins →
      (isLeader w0 = true → al = true ∧ encode ins = some [w0, w1, w2, w3]) ∧ (isLeader w0 = false → encode ins = some [w0]))
  ∧ (
  let i : Issue := ⟨0, 0, false⟩
  decodeWord 0 0x001FFFFB = some (.pushi i 0xFFFFB) ∧ decodeWord 0 0x98400000 = some (.add ⟨0, 3, true⟩) ∧ decodeWord 0 0x108FFFFD = some (.br ⟨0, 2, false⟩ 0xFFFFD)
    ∧ decodeWord 0 0x00600205 = some (.icmp i 2 5) ∧ decodeWord 0 0x01009000 = some (.ffma i .f64) ∧ decodeWord 0 0x00C06000 = some (.ld i .d) ∧ decodeWord 0 0x00D0B000 = some (.dst i .d)
    ∧ decodeWord 0 0x02101000 = some (.vld i .w32) ∧ decodeWord 0 0x02200000 = some (.vadd i .f32) ∧ decodeWord 0 0x02800002 = some (.vqpop i 2) ∧ decodeWord 0 0x02A00000 = some (.vfold i)
    ∧ decodeWord 0 0x04000000 = some (.aepost i) ∧ decodeWord 0 0x04800000 = some (.arrive i) ∧ decodeWord 0 0x04901000 = some (.swaitT i) ∧ decodeWord 0 0x05000000 = some (.fence i)
    ∧ decodeWord 0 0x058014C0 = some (.trel i 1 3) ∧ decodeWord 0 0x01100000 = none ∧ decodeWord 0 0x00005000 = none ∧ decodeWord 0 0x00400001 = none
    ∧ decodeCore 0 true 0x06140002 0x00008000 0 0 = some (.tstream i ⟨1, 0, 2, false, 0, 0, 128, 0, 0, 0⟩))

/-! ## Core instructions: guards, causes, stacks -/

/-- An instruction whose guard is false only moves the PC, past the word or past the bundle it leads (R131, R132, R135). Stated for instructions of every family, bundles among them. -/
def Obligations.FalseGuardMovesThePcOnly : Prop :=
  ∀ (i : Issue) (s : State), s.atBoundary i.core.val = true → s.boundaryCause i.core.val = none → (s.core i.core.val).tileHold = false →
    (s.predBit i.core.val i.g.toNat == i.s) = true →
    let t : Host.Outcome State Fault Refusal := .next (s.after i (s.core i.core.val).istk (s.core i.core.val).vstk)
    exec (.add i) s = t ∧ exec (.syscall i 1) s = t ∧ exec (.retx i) s = t ∧ exec (.vadd i .f32) s = t ∧ exec (.ld i .d) s = t ∧ exec (.st i .d) s = t
      ∧ exec (.aepost i) s = t ∧ exec (.wait i) s = t ∧ exec (.fence i) s = t ∧ exec (.mcopy i) s = t ∧ exec (.trela i) s = t ∧ (∀ n, exec (.wrsr i n) s = t)
      ∧ (∀ n, exec (.rdsr i n) s = t) ∧ exec (.dup i) s = t ∧ exec (.vdup i) s = t ∧ (∀ p q r, exec (.pand i p q r) s = t ∧ exec (.pset i p) s = t ∧ exec (.icmp i 9 p) s = t ∧ exec (.fcmp i .f64 7 p) s = t)
      ∧ (∀ fw, exec (.fadd i fw) s = t ∧ exec (.ffma i fw) s = t ∧ exec (.cvtfi i fw) s = t ∧ exec (.fld i fw) s = t ∧ exec (.fst i fw) s = t ∧ exec (.fdld i fw) s = t ∧ exec (.fdst i fw) s = t)
      ∧ (∀ wd, exec (.dld i wd) s = t) ∧ (∀ wd, exec (.dst i wd) s = t) ∧ (∀ wd, exec (.vld i wd) s = t ∧ exec (.vst i wd) s = t) ∧ exec (.vrsum i .f32) s = t ∧ exec (.vqpop i 2) s = t ∧ exec (.vfold i) s = t
      ∧ exec (.vwredSum i) s = t ∧ (∀ a, exec (.tcfg i a 9) s = t ∧ exec (.tsave i a 0) s = t ∧ exec (.tstartAt i a) s = t) ∧ exec (.tquiesce i) s = t ∧ exec (.pref i) s = t
      ∧ exec (.mccli i) s = t ∧ exec (.mcinvAll i) s = t ∧ exec (.xinv i) s = t ∧ exec (.arrive i) s = t ∧ exec (.signalAt i) s = t ∧ exec (.swaitT i) s = t
      ∧ ((s.core i.core.val).pc.toNat % 16 = 0 →
        let t : Host.Outcome State Fault Refusal := .next (s.after i (s.core i.core.val).istk (s.core i.core.val).vstk 16)
        (∀ b : WeightLoad, b.legal = true → exec (.twload i b) s = t) ∧ (∀ b : Stream, b.legal = true → exec (.tstream i b) s = t) ∧ (∀ b : Drain, b.legal = true → exec (.tdrain i b) s = t)
          ∧ ∀ (a : BitVec 2) (dly : BitVec 10) (opd : BitVec 5) (tile : BitVec 3), (opdHead opd = true → exec (.tfill i a dly opd tile) s = t) ∧ (opdTail opd = true → exec (.temit i a dly opd tile) s = t))

/-- Integer instructions of two operands, of one, and those that push; RDPM reads the copy of the core's region (R114, R137, R154, R339). -/
def Obligations.IntegerResults : Prop :=
  (∀ (i : Issue) (s : State) (a b : W64) (r : List W64), s.issuesNow i → s.onCore i.core.val 2 1 0 0 → (s.core i.core.val).istk = b :: a :: r →
      let gives := fun (ins : Instr) (v : W64) => exec ins s = .next (s.after i (v :: r) (s.core i.core.val).vstk)
      gives (.add i) (a + b) ∧ gives (.sub i) (a - b) ∧ gives (.mul i) (a * b)
        ∧ gives (.mulh i) (BitVec.ofInt 64 (a.toInt * b.toInt / 2 ^ 64)) ∧ gives (.mulhu i) (BitVec.ofNat 64 (a.toNat * b.toNat / 2 ^ 64))
        ∧ gives (.div i) (if b = 0 then -1 else BitVec.ofInt 64 (a.toInt.tdiv b.toInt)) ∧ gives (.divu i) (if b = 0 then -1 else BitVec.ofNat 64 (a.toNat / b.toNat))
        ∧ gives (.rem i) (if b = 0 then a else BitVec.ofInt 64 (a.toInt.tmod b.toInt)) ∧ gives (.remu i) (if b = 0 then a else BitVec.ofNat 64 (a.toNat % b.toNat))
        ∧ gives (.andI i) (a &&& b) ∧ gives (.orI i) (a ||| b) ∧ gives (.xorI i) (a ^^^ b)
        ∧ gives (.shl i) (BitVec.ofNat 64 (a.toNat * 2 ^ (b.toNat % 64))) ∧ gives (.shr i) (BitVec.ofNat 64 (a.toNat / 2 ^ (b.toNat % 64)))
        ∧ gives (.sar i) (BitVec.ofInt 64 (a.toInt / 2 ^ (b.toNat % 64)))
        ∧ gives (.minI i) (if a.toInt ≤ b.toInt then a else b) ∧ gives (.maxI i) (if a.toInt ≤ b.toInt then b else a)
        ∧ gives (.minu i) (if a.toNat ≤ b.toNat then a else b) ∧ gives (.maxu i) (if a.toNat ≤ b.toNat then b else a)
        ∧ ∀ p, gives (.sel i p) (if s.predBit i.core.val p.toNat then a else b))
  ∧ ((∀ (i : Issue) (s : State) (a : W64) (r : List W64), s.issuesNow i → s.onCore i.core.val 1 1 0 0 → (s.core i.core.val).istk = a :: r →
      let gives := fun (ins : Instr) (v : W64) => exec ins s = .next (s.after i (v :: r) (s.core i.core.val).vstk)
      (∀ n, gives (.addi i n) (a + n.signExtend 64)) ∧ (∀ n, gives (.pushu i n) (BitVec.ofNat 64 (a.toNat * 2 ^ 20 + n.toNat)))
        ∧ gives (.notI i) (~~~a) ∧ gives (.negI i) (0 - a))
    ∧ ∀ (i : Issue) (s : State), s.issuesNow i → s.onCore i.core.val 0 1 0 0 →
      let gives := fun (ins : Instr) (v : W64) => exec ins s = .next (s.after i (v :: (s.core i.core.val).istk) (s.core i.core.val).vstk)
      (∀ n, gives (.pushi i n) (n.signExtend 64)) ∧ gives (.rdpc i) (s.core i.core.val).pc ∧ gives (.rdpm i) (s.copyOf (regionOf i.core.val))
        ∧ gives (.vgetvl i) (BitVec.ofNat 64 (s.vlen i.core.val)))

/-- Moves of whole entries and of whole slots with their poison; the top of a list is the top of the stack (R137, R161). Predicate instructions and ICMP: the destination takes the value, P0 reads 1 and ignores it, every other predicate stays (R134, R137, R138); ICMP's codes 0 to 9 in their order. -/
def Obligations.StackAndPredicateResults : Prop :=
  (∀ (i : Issue) (s : State), s.issuesNow i →
    let l := (s.core i.core.val).istk
    let v := (s.core i.core.val).vstk
    let ints := fun (n q : Nat) (ins : Instr) (m : List W64) => s.onCore i.core.val n q 0 0 → exec ins s = .next (s.after i m v)
    let slots := fun (n q : Nat) (ins : Instr) (m : List VSlot) => s.onCore i.core.val 0 0 n q → exec ins s = .next (s.after i l m)
    (∀ a r, l = a :: r → ints 1 2 (.dup i) (a :: a :: r) ∧ ints 1 0 (.drop i) r)
      ∧ (∀ a b r, l = b :: a :: r → ints 2 2 (.swap i) (a :: b :: r) ∧ ints 2 3 (.overI i) (a :: b :: a :: r) ∧ ints 2 1 (.nip i) (b :: r))
      ∧ (∀ a b c r, l = c :: b :: a :: r → ints 3 3 (.rot i) (a :: c :: b :: r))
      ∧ (∀ (k : BitVec 4) x, l[k.toNat]? = some x → ints (k.toNat + 1) (k.toNat + 2) (.pick i k) (x :: l))
      ∧ (∀ a r, v = a :: r → slots 1 2 (.vdup i) (a :: a :: r) ∧ slots 1 0 (.vdrop i) r)
      ∧ (∀ a b r, v = b :: a :: r → slots 2 2 (.vswap i) (a :: b :: r) ∧ slots 2 3 (.vover i) (a :: b :: a :: r))
      ∧ (∀ a b c r, v = c :: b :: a :: r → slots 3 3 (.vrot i) (a :: c :: b :: r))
      ∧ slots 0 1 (.vzero i) (⟨0, 0⟩ :: v))
  ∧ (∀ (i : Issue) (s : State) (d a b : BitVec 4), s.issuesNow i → s.onCore i.core.val 0 0 0 0 →
    let k := i.core.val
    let writes := fun (ins : Instr) (v : Bool) => exec ins s = .next ((s.after i (s.core k).istk (s.core k).vstk).setPred k d.toNat v)
    let P := fun (p : BitVec 4) => s.predBit k p.toNat
    writes (.pand i d a b) (P a && P b) ∧ writes (.por i d a b) (P a || P b) ∧ writes (.pxor i d a b) (P a ^^ P b) ∧ writes (.pandn i d a b) (P a && !P b)
      ∧ writes (.pnot i d a) (!P a) ∧ writes (.pmov i d a) (P a) ∧ writes (.pset i d) true ∧ writes (.pclr i d) false)
  ∧ (∀ (i : Issue) (s : State) (d : BitVec 4) (a b : W64) (r : List W64), s.issuesNow i → s.onCore i.core.val 2 0 0 0 → (s.core i.core.val).istk = b :: a :: r →
    let k := i.core.val
    let writes := fun (cc : BitVec 4) (v : Bool) => exec (.icmp i cc d) s = .next ((s.after i r (s.core k).vstk).setPred k d.toNat v)
    writes 0 (decide (a = b)) ∧ writes 1 (decide (a ≠ b)) ∧ writes 2 (decide (a.toInt < b.toInt)) ∧ writes 3 (decide (a.toInt ≤ b.toInt))
      ∧ writes 4 (decide (b.toInt < a.toInt)) ∧ writes 5 (decide (b.toInt ≤ a.toInt)) ∧ writes 6 (decide (a.toNat < b.toNat)) ∧ writes 7 (decide (a.toNat ≤ b.toNat))
      ∧ writes 8 (decide (b.toNat < a.toNat)) ∧ writes 9 (decide (b.toNat ≤ a.toNat)))
  ∧ ∀ (s : State) (k p q : Nat) (v : Bool), p < 16 → q < 16 →
    (s.setPred k p v).predBit k q = (if q = 0 then true else if q = p then v else s.predBit k q) ∧ (s.setPred k 0 v) = s

/-- NOP, IFENCE, branches and calls with a guard that holds, and a conditional branch not taken; guarded BR and CALL train the predictor, BRI and CALLI count six cycles of MISPREDICT (R137, R141, R144). A guarded branch whose guard is false trains the predictor as not taken and falls through (R132, R144). That IFENCE only moves the PC (log 1), the 6 of MISPREDICT (log 28) and that a branch with G = 0 does not train (log 115) are the model's choices. -/
def Obligations.ControlFlowResults : Prop :=
  (∀ (i : Issue) (s : State), s.issuesNow i →
      let k := i.core.val
      let pc := (s.core k).pc
      let l := (s.core k).istk
      let v := (s.core k).vstk
      (s.onCore k 0 0 0 0 → exec (.nop i) s = .next (s.after i l v) ∧ exec (.ifence i) s = .next (s.after i l v)
          ∧ ∀ imm : BitVec 20, exec (.br i imm) s = .next (((s.after i l v).setPc k (pc + imm.signExtend 64 * 4)).train i pc true))
        ∧ (s.onCore k 0 1 0 0 → ∀ imm : BitVec 20, exec (.call i imm) s = .next (((s.after i ((pc + 4) :: l) v).setPc k (pc + imm.signExtend 64 * 4)).train i pc true))
        ∧ (∀ a r, l = a :: r → s.onCore k 1 0 0 0 → exec (.bri i) s = .next (((s.after i r v).setPc k (a &&& ~~~3)).bump (.cu k) 0x4A0 6))
        ∧ (∀ a r, l = a :: r → s.onCore k 1 1 0 0 → exec (.calli i) s = .next (((s.after i ((pc + 4) :: r) v).setPc k (a &&& ~~~3)).bump (.cu k) 0x4A0 6)))
  ∧ (∀ (i : Issue) (imm : BitVec 20) (s : State), s.atBoundary i.core.val = true → s.boundaryCause i.core.val = none → (s.core i.core.val).tileHold = false →
      (s.predBit i.core.val i.g.toNat == i.s) = true →
      let k := i.core.val
      let t := (s.after i (s.core k).istk (s.core k).vstk).train i (s.core k).pc false
      exec (.br i imm) s = .next t ∧ exec (.call i imm) s = .next t
        ∧ (i.g ≠ 0 → t.predicts k (s.core k).pc = (if s.predicts k (s.core k).pc = 0 then 0 else s.predicts k (s.core k).pc - 1)))

/-- Taking a cause when nothing forbids it: the frame of R357 below KSP, PRIV and IHOLD set, DF and PRECISE_ARITH kept, fetch from CORE_EVEC; both stacks, every other byte of core data memory, device memory and every other core stay (R355, R357). Entry with an invalid KSP is a double fault: the frame goes to the dead-letter box with its trailer, KSP stands, DF, PRIV and IHOLD are set, fetch goes to CORE_DFVEC (R355, R359, R360). A fault while entering is a double fault with reason 4 and its code: the frame already written is copied to the box and KSP stands as before the entry (R356, R359, R360). -/
def Obligations.ExceptionEntry : Prop :=
  (∀ (s : State) (k : Nat) (c : Cause) (pc : W64), s.inDf k = false → s.kspReason k = none → c.code < 64 → Memory.wf (s.core k).dmem = true →
      let t := s.enter k c pc
      let p := s.ksp k - 128
      t.ksp k = p ∧ (t.core k).pc = s.vector k 0x518 ∧ t.stat k = s.stat k ||| 3
        ∧ t.dmemNat k p 8 = pc.toNat ∧ t.dmemNat k (p + 0x08) 4 = s.statWord k ∧ t.dmemNat k (p + 0x0C) 4 = c.code + 64 * b2n c.precise + 256 * c.syscall.toNat
        ∧ t.dmemNat k (p + 0x10) 8 = c.addr.toNat ∧ t.dmemNat k (p + 0x18) 8 = c.info.toNat ∧ t.dmemNat k (p + 0x20) 8 = (s.copyOf (regionOf k)).toNat
        ∧ t.dmemNat k (p + 0x28) 4 = s.reg (.cu k) 0x404 ∧ t.dmemNat k (p + 0x2C) 4 = s.reg (.cu k) 0x414 ∧ t.dmemNat k (p + 0x34) 4 = s.preds k
        ∧ t.dmemNat k (p + 0x30) 4 = s.stkDepth k % 2 ^ 32 ∧ t.dmemNat k (p + 0x38) 4 = s.vlen k ∧ t.dmemNat k (p + 0x3C) 4 = s.ctxWord k % 2 ^ 32
        ∧ t.dmemNat k (p + 0x40) 64 = 0 ∧ (∀ a, a < p ∨ p + 128 ≤ a → memGet (t.core k).dmem a = memGet (s.core k).dmem a)
        ∧ (t.core k).istk = (s.core k).istk ∧ (t.core k).vstk = (s.core k).vstk ∧ t.mem = s.mem ∧ ∀ j, j ≠ k → t.core j = s.core j)
  ∧ (∀ (s : State) (k reason : Nat) (c : Cause) (pc : W64), s.inDf k = false → s.kspReason k = some reason → Memory.wf (s.core k).dmem = true →
      let t := s.enter k c pc
      (reason = 1 ↔ s.ksp k % 128 ≠ 0) ∧ (t.core k).pc = s.vector k 0x520 ∧ t.stat k = s.stat k ||| 7 ∧ t.ksp k = s.ksp k
        ∧ t.dmemNat k 0x7FF00 8 = pc.toNat ∧ t.dmemNat k 0x7FF0C 4 = c.word % 2 ^ 32 ∧ t.dmemNat k 0x7FF80 4 = reason ∧ t.dmemNat k 0x7FF84 4 = 0
        ∧ t.dmemNat k 0x7FF88 4 = s.ksp k ∧ t.dmemNat k 0x7FF8C 4 = (s.dmemNat k 0x7FF8C 4 + 1) % 2 ^ 32
        ∧ t.dmemNat k 0x7FF90 8 = (s.copyOf (regionOf k)).toNat ∧ t.dmemNat k 0x7FF98 40 = 0
        ∧ t.dmemNat k 0x7FF30 4 = s.stkDepth k % 2 ^ 32 ∧ t.dmemNat k 0x7FF38 4 = s.vlen k ∧ t.dmemNat k 0x7FF3C 4 = s.ctxWord k % 2 ^ 32
        ∧ (∀ a, a < 0x7FF00 ∨ 0x7FFC0 ≤ a → memGet (t.core k).dmem a = memGet (s.core k).dmem a)
        ∧ (t.core k).istk = (s.core k).istk ∧ t.mem = s.mem ∧ ∀ j, j ≠ k → t.core j = s.core j)
  ∧ (∀ (s : State) (k : Nat) (c : Cause) (pc : W64), s.inDf k = false → s.ksp k + 128 ≤ 0x7FF00 → c.code < 64 → Memory.wf (s.core k).dmem = true →
      let t := s.enteringFault k c pc
      (t.core k).pc = s.vector k 0x520 ∧ t.stat k = s.stat k ||| 7 ∧ t.ksp k = s.ksp k + 128 ∧ t.dmemBytes k 0x7FF00 128 = s.dmemBytes k (s.ksp k) 128
        ∧ t.dmemNat k 0x7FF80 4 = 4 ∧ t.dmemNat k 0x7FF84 4 = c.code ∧ t.dmemNat k 0x7FF88 4 = s.ksp k + 128 ∧ t.dmemNat k 0x7FF8C 4 = (s.dmemNat k 0x7FF8C 4 + 1) % 2 ^ 32
        ∧ t.dmemNat k 0x7FF90 8 = (s.copyOf (regionOf k)).toNat ∧ (∀ a, a < 0x7FF00 ∨ 0x7FFC0 ≤ a → memGet (t.core k).dmem a = memGet (s.core k).dmem a)
        ∧ (t.core k).istk = (s.core k).istk ∧ t.mem = s.mem ∧ ∀ j, j ≠ k → t.core j = s.core j)

/-- SYSCALL enters the supervisor with the address of the next instruction and its code, at either level; masked it is a NOP that sets CORE_MASKED.SYSCALL (R147, R349). RETX at supervisor level restores the PC and the status of the frame in one step: from the frame at KSP, which rises by 128, or from the dead-letter box while DF is set, KSP unchanged; STOPPED, the stacks, core data memory and device memory stay (R145, R358). With a KSP that fails the test it is a double fault with reason 5: the box holds a frame with the RETX address and CAUSE 0, and the KSP that was tested (R359, R360). The low two bits of a PC that is restored do not count (log 41), and the test of KSP is that of an entry (log 92). -/
def Obligations.SyscallAndRetx : Prop :=
  (∀ (i : Issue) (code : BitVec 12) (s : State), s.issuesNow i → s.onCore i.core.val 0 0 0 0 →
      let k := i.core.val
      (s.masked k 2 = false → exec (.syscall i code) s
          = .next ((s.cancelWait k i.core.isLt).enter k { code := 2, precise := true, syscall := code } ((s.core k).pc + 4)))
        ∧ (s.masked k 2 = true → exec (.syscall i code) s = .next (((s.raise (.cu k) 0x250 0).issued k i.core.isLt).skip k 4)))
  ∧ (∀ (i : Issue) (s : State), s.issuesNow i → s.onCore i.core.val 0 0 0 0 → s.priv i.core.val = true →
      let k := i.core.val
      let at_ := if s.inDf k then 0x7FF00 else s.ksp k
      (s.inDf k = false → s.kspReason k = none) → ∃ t, exec (.retx i) s = .next t
        ∧ (t.core k).pc = BitVec.ofNat 64 (s.dmemNat k at_ 8 / 4 * 4) ∧ t.stat k % 16 = s.dmemNat k (at_ + 8) 4 % 16 ∧ t.stopped k = s.stopped k
        ∧ t.ksp k = (if s.inDf k then s.ksp k else s.ksp k + 128)
        ∧ (t.core k).istk = (s.core k).istk ∧ (t.core k).vstk = (s.core k).vstk ∧ (t.core k).dmem = (s.core k).dmem ∧ t.mem = s.mem ∧ ∀ j, j ≠ k → t.core j = s.core j)
  ∧ (∀ (i : Issue) (s : State) (reason : Nat), s.issuesNow i → s.onCore i.core.val 0 0 0 0 → s.priv i.core.val = true →
      let k := i.core.val
      s.inDf k = false → s.kspReason k = some reason → Memory.wf (s.core k).dmem = true → ∃ t, exec (.retx i) s = .next t
        ∧ (t.core k).pc = s.vector k 0x520 ∧ t.stat k = s.stat k ||| 7 ∧ t.ksp k = s.ksp k
        ∧ t.dmemNat k 0x7FF00 8 = (s.core k).pc.toNat ∧ t.dmemNat k 0x7FF0C 4 = 0 ∧ t.dmemNat k 0x7FF80 4 = 5 ∧ t.dmemNat k 0x7FF84 4 = 0 ∧ t.dmemNat k 0x7FF88 4 = s.ksp k
        ∧ t.dmemNat k 0x7FF8C 4 = (s.dmemNat k 0x7FF8C 4 + 1) % 2 ^ 32 ∧ t.dmemNat k 0x7FF90 8 = (s.copyOf (regionOf k)).toNat
        ∧ (∀ a, a < 0x7FF00 ∨ 0x7FFC0 ≤ a → memGet (t.core k).dmem a = memGet (s.core k).dmem a)
        ∧ (t.core k).istk = (s.core k).istk ∧ (t.core k).vstk = (s.core k).vstk ∧ t.mem = s.mem ∧ ∀ j, j ≠ k → t.core j = s.core j)

/-- WAITI completes once an unmasked interrupt is pending and held back, and otherwise waits at its address (R137, R145); RDSR pushes a register of the control unit frame and WRSR stores one, whole, for the ordinary registers (R146). -/
def Obligations.SystemRegisterInstructions : Prop :=
  ∀ (i : Issue) (s : State), s.issuesNow i →
    let k := i.core.val
    let l := (s.core k).istk
    let v := (s.core k).vstk
    (s.priv k = true → s.onCore k 0 0 0 0 → (s.interruptNow k).isSome = true → exec (.waiti i) s = .next (s.after i l v))
      ∧ (s.priv k = true → s.onCore k 0 0 0 0 → s.interruptNow k = none → exec (.waiti i) s = .next (s.waits k i.core.isLt (.waiti i) .waiti))
      ∧ (∀ n : BitVec 10, s.onCore k 0 1 0 0 → (∃ m r, regInfo (.cu k) (4 * n.toNat) = some ⟨.plain, m, r⟩) → setHas (s.frame (.cu k)).badParity (4 * n.toNat) = false →
          n ≠ 0x140 → exec (.rdsr i n) s = .next (s.after i (BitVec.ofNat 64 (s.reg (.cu k) (4 * n.toNat)) :: l) v))
      ∧ (∀ (n : BitVec 10) (m r : Nat) (a : W64) (rest : List W64), s.onCore k 1 0 0 0 → l = a :: rest → (0x100 ≤ n.toNat → s.priv k = true) →
          regInfo (.cu k) (4 * n.toNat) = some ⟨.plain, m, r⟩ → m ≠ 0 → n ≠ 0x84 → n ≠ 0x8C →
          ∃ t, exec (.wrsr i n) s = .next t ∧ t.reg (.cu k) (4 * n.toNat) = (s.reg (.cu k) (4 * n.toNat) &&& (0xFFFFFFFF ^^^ m)) ||| (a.toNat % 2 ^ 32 &&& m)
            ∧ (t.core k).istk = rest ∧ (t.core k).pc = (s.core k).pc + 4 ∧ t.mem = s.mem ∧ (t.core k).dmem = (s.core k).dmem
            ∧ ∀ o, o ≠ 4 * n.toNat → o ≠ 0x4C8 → o ≠ 0x4CC → t.reg (.cu k) o = s.reg (.cu k) o)

/-- At user level RETX, WAITI and WRSR to an offset of the supervisor raise PRIVILEGE without effect: the core enters the supervisor with the address of the instruction; masked, they are skipped with CORE_CUSTAT.PRIV_SKIPPED (R145). A load of core data memory above UTOP at user level is PRIVILEGE, a misaligned one MISALIGNED, one beyond the memory DMEM_RANGE, the lowest code first; none has an effect when the cause is unmasked (R115, R127, R138, R351). -/
def Obligations.PrivilegeAndAccessFaults : Prop :=
  (∀ (i : Issue) (n : BitVec 10) (s : State), s.issuesNow i → s.onCore i.core.val 0 0 0 0 → s.onCore i.core.val 1 0 0 0 → s.priv i.core.val = false → 0x100 ≤ n.toNat →
      let k := i.core.val
      let t := if s.masked k 1 then ((s.raise (.cu k) 0x228 6).issued k i.core.isLt).skip k 4
        else (s.cancelWait k i.core.isLt).enter k { code := 1, precise := true } (s.core k).pc
      exec (.retx i) s = .next t ∧ exec (.waiti i) s = .next t ∧ exec (.wrsr i n) s = .next t)
  ∧ (∀ (i : Issue) (s : State) (a : W64) (r : List W64), s.issuesNow i → s.onCore i.core.val 1 1 0 0 → (s.core i.core.val).istk = a :: r →
      let k := i.core.val
      let enters := fun (c : Cause) => exec (.dld i .d) s = .next ((s.cancelWait k i.core.isLt).enter k { c with precise := true } (s.core k).pc)
      (s.priv k = false → s.reg (.cu k) 0x420 < a.toNat + 8 → s.masked k 1 = false → enters { code := 1 })
        ∧ (s.priv k = true → a.toNat % 8 ≠ 0 → s.masked k 5 = false → enters { code := 5, addr := a })
        ∧ (s.priv k = true → a.toNat % 8 = 0 → 0x80000 < a.toNat + 8 → s.masked k 6 = false → enters { code := 6, addr := a })
        ∧ (s.priv k = true → a.toNat % 8 ≠ 0 → s.masked k 5 = true → exec (.dld i .d) s = .next ((((s.raise (.cu k) 0x250 3).issued k i.core.isLt).withInts k (0 :: r)).skip k 4)))

/-- With DF set a cause other than an interrupt is a third fault: the TF fields of the box, block reset of the core, THIRD_FAULT with the module core number, the context, REASON, FRAME.PC and TF_PC; the core stays stopped and its catalogue entry stands (R360, R361). -/
def Obligations.ThirdFaultStops : Prop :=
  ∀ (s : State) (k : Fin 128) (c : Cause) (pc : W64), s.inDf k.val = true → c.code < 32 → Memory.wf (s.core k.val).dmem = true →
    let t := s.enter k.val c pc
    let tf := u64 pc.toNat ++ u32 c.word ++ u32 (s.dmemNat k.val 0x7FFCC 4 + 1) ++ u64 c.addr.toNat ++ u64 (s.copyOf (regionOf k.val)).toNat
    t = (((s.dmemWrite k.val 0x7FFC0 tf).blockResetCore k.val).modCore k.val (fun x => { x with stopBy := 1 })).event (.cu k.val) 0x106 (s.ctxByte k.val) 0
        (u64 (s.dmemNat k.val 0x7FF00 8) ++ u64 pc.toNat ++ u16 k.val ++ u8 (s.dmemNat k.val 0x7FF80 4))
      ∧ t.stopped k.val = true ∧ t.cat = s.cat ∧ t.mem = s.mem ∧ (t.core k.val).istk = [] ∧ (t.core k.val).vstk = []
      ∧ t.dmemNat k.val 0x7FFC0 8 = pc.toNat ∧ t.dmemNat k.val 0x7FFC8 4 = c.word % 2 ^ 32 ∧ t.dmemNat k.val 0x7FFCC 4 = (s.dmemNat k.val 0x7FFCC 4 + 1) % 2 ^ 32
      ∧ (∀ a, a < 0x7FFC0 ∨ 0x7FFE0 ≤ a → memGet (t.core k.val).dmem a = memGet (s.core k.val).dmem a)
      ∧ ∀ j, j ≠ k.val → t.core j = s.core j

/-- A full integer stack spills its deepest group before an instruction that pushes: 64 bytes at CORE_ISSP, deepest entry lowest, the pointer rises by 64; a V-stack its deepest slot, 1,024 bytes at CORE_VSSP with the poison of its quarters; an instruction that needs what lies in the area fills it back, the pointer falling, and does what it does without spill and fill (R116, R117, R120). An area that is exhausted, by a spill over its limit or a fill at its base, raises STACK_LIMIT without effect and sets its flag of CORE_CUSTAT (R118); masked, the spill discards its group, the fill supplies zeros, STK_LOST sets and the instruction executes (R119). Shown by DUP, ADD, VDUP and VDROP. -/
def Obligations.StackSpillAndUnderflow : Prop :=
  (∀ (i : Issue) (s : State) (a : W64) (r : List W64), s.issuesNow i → (s.core i.core.val).istk = a :: r → r.length = 31 → (s.core i.core.val).vstk.length ≤ 16 →
      let k := i.core.val
      let p := s.reg (.cu k) 0x404
      p + 64 ≤ s.reg (.cu k) 0x408 → p + 64 ≤ 0x7FF00 → Memory.wf (s.core k).dmem = true → ∃ t, exec (.dup i) s = .next t
        ∧ (t.core k).istk = a :: a :: r.take 23 ∧ t.reg (.cu k) 0x404 = p + 64
        ∧ (∀ j, j < 8 → ∀ x, r[30 - j]? = some x → t.dmemNat k (p + 8 * j) 8 = x.toNat)
        ∧ (∀ m, m < p ∨ p + 64 ≤ m → memGet (t.core k).dmem m = memGet (s.core k).dmem m)
        ∧ (t.core k).vstk = (s.core k).vstk ∧ (t.core k).pc = (s.core k).pc + 4 ∧ t.mem = s.mem ∧ ∀ j, j ≠ k → t.core j = s.core j)
  ∧ (∀ (i : Issue) (s : State), s.issuesNow i → (s.core i.core.val).istk = [] → s.reg (.cu i.core.val) 0x404 = s.reg (.cu i.core.val) 0x400 → s.masked i.core.val 9 = false →
      let k := i.core.val
      exec (.add i) s = .next (((s.raise (.cu k) 0x228 1).cancelWait k i.core.isLt).enter k { code := 9, precise := true } (s.core k).pc))
  ∧ (∀ (i : Issue) (s : State) (b : W64), s.issuesNow i → (s.core i.core.val).istk = [b] → (s.core i.core.val).vstk.length ≤ 16 →
      let k := i.core.val
      let p := s.reg (.cu k) 0x404
      p ≠ s.reg (.cu k) 0x400 → 64 ≤ p → p < 2 ^ 19 → ∃ t, exec (.add i) s = .next t
        ∧ (t.core k).istk = (BitVec.ofNat 64 (s.dmemNat k (p - 8) 8) + b) :: (List.range 7).map (fun j => BitVec.ofNat 64 (s.dmemNat k (p - 16 - 8 * j) 8)) ∧ t.reg (.cu k) 0x404 = p - 64
        ∧ (t.core k).vstk = (s.core k).vstk ∧ (t.core k).dmem = (s.core k).dmem ∧ (t.core k).pc = (s.core k).pc + 4 ∧ t.mem = s.mem ∧ ∀ j, j ≠ k → t.core j = s.core j)
  ∧ (∀ (i : Issue) (s : State), s.issuesNow i → (s.core i.core.val).istk.length ≤ 32 →
      let k := i.core.val
      let q := s.reg (.cu k) 0x414
      let keeps := fun (t : State) => (t.core k).istk = (s.core k).istk ∧ (t.core k).pc = (s.core k).pc + 4 ∧ t.mem = s.mem ∧ ∀ j, j ≠ k → t.core j = s.core j
      let enters := fun (ins : Instr) (flag : Nat) => exec ins s = .next (((s.raise (.cu k) 0x228 flag).cancelWait k i.core.isLt).enter k { code := 9, precise := true } (s.core k).pc)
      (∀ a r d, (s.core k).vstk = a :: r ++ [d] → r.length = 14 → q % 1024 = 0 → q + 1024 ≤ s.reg (.cu k) 0x418 → q + 1024 ≤ 0x7FF00 → Memory.wf (s.core k).dmem = true → ∃ t, exec (.vdup i) s = .next t
          ∧ (t.core k).vstk = a :: a :: r ∧ t.reg (.cu k) 0x414 = q + 1024 ∧ t.dmemNat k q 1024 = d.v.toNat ∧ t.slotPoison k q = d.poison
          ∧ (∀ m, m < q ∨ q + 1024 ≤ m → memGet (t.core k).dmem m = memGet (s.core k).dmem m) ∧ keeps t)
        ∧ ((s.core k).vstk = [] → q ≠ s.reg (.cu k) 0x410 → 1024 ≤ q → q < 2 ^ 19 → ∃ t, exec (.vdup i) s = .next t
          ∧ (let x : VSlot := ⟨BitVec.ofNat 8192 (s.dmemNat k (q - 1024) 1024), s.slotPoison k (q - 1024)⟩; (t.core k).vstk = [x, x])
          ∧ t.reg (.cu k) 0x414 = q - 1024 ∧ (t.core k).dmem = (s.core k).dmem ∧ keeps t)
        ∧ ((s.core k).vstk = [] → q = s.reg (.cu k) 0x410 → (s.masked k 9 = false → enters (.vdrop i) 3)
          ∧ (s.masked k 9 = true → ∃ t, exec (.vdrop i) s = .next t ∧ (t.core k).vstk = [] ∧ t.reg (.cu k) 0x414 = q ∧ (tget (t.frame (.cu k)).flags 0x228 0).getLsbD 3 = true
            ∧ (tget (t.frame (.cu k)).flags 0x228 0).getLsbD 4 = true ∧ (t.core k).dmem = (s.core k).dmem ∧ keeps t))
        ∧ ((s.core k).vstk.length = 16 → s.reg (.cu k) 0x418 < q + 1024 → s.masked k 9 = false → enters (.vdup i) 2)
        ∧ ((s.core k).istk.length = 32 → (s.core k).vstk.length ≤ 16 → s.reg (.cu k) 0x408 < s.reg (.cu k) 0x404 + 64 → s.masked k 9 = false → enters (.dup i) 0))
  ∧ (∀ (i : Issue) (s : State), s.issuesNow i → s.masked i.core.val 9 = true → (s.core i.core.val).vstk.length ≤ 16 →
      let k := i.core.val
      let p := s.reg (.cu k) 0x404
      let lost := fun (ins : Instr) (ints : List W64) (flag : Nat) => ∃ t, exec ins s = .next t ∧ (t.core k).istk = ints ∧ t.reg (.cu k) 0x404 = p ∧ (tget (t.frame (.cu k)).flags 0x228 0).getLsbD flag = true
        ∧ (tget (t.frame (.cu k)).flags 0x228 0).getLsbD 4 = true ∧ (t.core k).dmem = (s.core k).dmem ∧ (t.core k).vstk = (s.core k).vstk ∧ (t.core k).pc = (s.core k).pc + 4 ∧ t.mem = s.mem
      ((s.core k).istk = [] → p = s.reg (.cu k) 0x400 → lost (.add i) [0] 1)
        ∧ ∀ a r, (s.core k).istk = a :: r → r.length = 31 → s.reg (.cu k) 0x408 < p + 64 → lost (.dup i) (a :: a :: r.take 23) 0)

/-- What the integer, stack, predicate and branch instructions leave: device memory, every byte of core data memory, every other core, every other unit's registers and, of this core's registers, all but CORE_PRED, CORE_ISSUED and MISPREDICT; every status flag, accumulator generator, array, access engine and cache (R132, R137). -/
def Obligations.PlainInstructionFrame : Prop :=
  ∀ (i : Issue) (s t : State) (ins : Instr) (imm : BitVec 20) (p q r : BitVec 4), s.issuesNow i →
    s.onCore i.core.val 0 0 0 0 → s.onCore i.core.val 2 3 0 0 → s.onCore i.core.val 3 3 0 0 →
    ins ∈ [.add i, .sub i, .mul i, .mulh i, .mulhu i, .div i, .divu i, .rem i, .remu i, .andI i, .orI i, .xorI i, .shl i, .shr i, .sar i, .minI i, .maxI i, .minu i, .maxu i,
      .sel i p, .addi i imm, .pushi i imm, .pushu i imm, .notI i, .negI i, .rdpc i, .dup i, .drop i, .swap i, .overI i, .rot i, .nip i, .pand i p q r, .por i p q r, .pxor i p q r,
      .pandn i p q r, .pnot i p q, .pmov i p q, .pset i p, .pclr i p, .icmp i 0 p, .nop i, .ifence i, .br i imm, .call i imm, .bri i, .calli i] →
    exec ins s = .next t →
    let k := i.core.val
    t.mem = s.mem ∧ (t.core k).dmem = (s.core k).dmem ∧ (t.core k).vstk = (s.core k).vstk ∧ (t.core k).gens = (s.core k).gens ∧ (∀ j, j ≠ k → t.core j = s.core j)
      ∧ (∀ f, f ≠ .cu k → t.frame f = s.frame f) ∧ (t.frame (.cu k)).flags = (s.frame (.cu k)).flags
      ∧ (∀ o, o ≠ 0x220 → o ≠ 0x4C8 → o ≠ 0x4CC → o ≠ 0x4A0 → o ≠ 0x4A4 → t.reg (.cu k) o = s.reg (.cu k) o)
      ∧ t.arrays = s.arrays ∧ t.aes = s.aes ∧ t.caches = s.caches ∧ t.cat = s.cat ∧ t.pm = s.pm

/-! ## Core data memory, device memory, scalars -/

/-- Loads and stores of core data memory at an aligned place inside it that the level may reach and that carries no poison: the loaded value extended, the stored bytes and nothing else, the poison of what FDLD and FDST move (R115, R127, R137, R138, R169); the cycles the access waits at its bank count in DMEM_CONFLICT (R129). What a store does to the poison of a block it covers in part is the model's choice (log 19), as are that a scalar's poison is that of its lowest quarter (log 25) and that an access waits a free number of cycles (log 30). -/
def Obligations.CoreDataMemoryAccess : Prop :=
  ∀ (i : Issue) (s : State) (a : W64) (r : List W64), s.issuesNow i → (s.core i.core.val).istk = a :: r → Memory.wf (s.core i.core.val).dmem = true →
    let k := i.core.val
    let v := (s.core k).vstk
    let reaches := fun (n : Nat) => a.toNat % n = 0 ∧ a.toNat + n ≤ 0x80000 ∧ (s.priv k = true ∨ a.toNat + n ≤ s.reg (.cu k) 0x420)
    let loads := fun (wd : LoadWidth) (n : Nat) (x : W64) => reaches n → s.dmemPoison k a.toNat n = false → s.onCore k 1 1 0 0 → exec (.dld i wd) s = .next (((s.landed i (x :: r) v).bankWait k).skip k 4)
    let stores := fun (ins : Instr) (n : Nat) (bytes : List Byte) (p : Bool) (ints : List W64) (slots : List VSlot) => reaches n → ∃ t, exec ins s = .next t
      ∧ (t.core k).istk = ints ∧ (t.core k).vstk = slots ∧ t.dmemBytes k a.toNat n = bytes ∧ t.dmemPoison k a.toNat n = (s.dmemPoison k a.toNat n || p) ∧ (∀ m, m < a.toNat ∨ a.toNat + n ≤ m → memGet (t.core k).dmem m = memGet (s.core k).dmem m)
      ∧ (t.reg (.cu k) (0x440 + 4 * (a.toNat / 4096 / 32))).testBit (a.toNat / 4096 % 32) = true
      ∧ (t.core k).pc = (s.core k).pc + 4 ∧ t.mem = s.mem ∧ (∀ j, j ≠ k → t.core j = s.core j) ∧ (∀ f, f ≠ .cu k → t.frame f = s.frame f) ∧ (t.frame (.cu k)).flags = (s.frame (.cu k)).flags
      ∧ (∀ o, o < 0x440 ∨ 0x450 ≤ o → o ≠ 0x4A8 → o ≠ 0x4AC → o ≠ 0x4C8 → o ≠ 0x4CC → t.reg (.cu k) o = s.reg (.cu k) o)
    loads .b 1 ((BitVec.ofNat 8 (s.dmemNat k a.toNat 1)).signExtend 64) ∧ loads .bu 1 (BitVec.ofNat 64 (s.dmemNat k a.toNat 1))
      ∧ loads .h 2 ((BitVec.ofNat 16 (s.dmemNat k a.toNat 2)).signExtend 64) ∧ loads .hu 2 (BitVec.ofNat 64 (s.dmemNat k a.toNat 2))
      ∧ loads .w 4 ((BitVec.ofNat 32 (s.dmemNat k a.toNat 4)).signExtend 64) ∧ loads .wu 4 (BitVec.ofNat 64 (s.dmemNat k a.toNat 4))
      ∧ loads .d 8 (BitVec.ofNat 64 (s.dmemNat k a.toNat 8))
      ∧ (∀ x q, r = x :: q → s.onCore k 2 0 0 0 →
          stores (.dst i .b) 1 (leBytes 1 x.toNat) false q v ∧ stores (.dst i .h) 2 (leBytes 2 x.toNat) false q v ∧ stores (.dst i .w) 4 (leBytes 4 x.toNat) false q v ∧ stores (.dst i .d) 8 (leBytes 8 x.toNat) false q v)
      ∧ (s.onCore k 1 0 0 1 → ∀ fw, reaches (widthOf fw / 8) →
          exec (.fdld i fw) s = .next (((s.landed i r (⟨BitVec.ofNat 8192 (s.dmemNat k a.toNat (widthOf fw / 8)), if s.dmemPoison k a.toNat (widthOf fw / 8) then 1 else 0⟩ :: v)).bankWait k).skip k 4))
      ∧ (∀ y ys, v = y :: ys → s.onCore k 1 0 1 0 → ∀ fw, stores (.fdst i fw) (widthOf fw / 8) (leBytes (widthOf fw / 8) y.v.toNat) (y.poison.getLsbD 0) r ys)

/-- Loads and stores of device memory complete whenever their range translates for the level, is aligned, meets no poison where POISON_USE is raised, and the sorting frame lets their requests go: the bytes come and go through the memory cache (R138, R255, R276, R280, R287, R288). VLD and VST move the active lanes only, all or nothing, each poisoned quarter with its poison; a VLEN of 0 touches no byte (R157, R158, R169). An LD of a poisoned sector raises POISON_USE, and a range of VLD or VST that does not translate XLATE_FAULT, without effect; masked, VLD gives zeros and VST writes nothing (R138, R158, R280, R349). With the memory cache off, the range in one page whose translation is held, no fence and no write on its way, a load completes with the very bytes of memory, and a store with its bytes on their way to memory, everything else as before. That a read returns within its step (log 6), that a scalar's poison is that of its lowest quarter (log 25) and what ADDR and INFO hold (log 98) are the model's. -/
def Obligations.DeviceMemoryAccess : Prop :=
  (∀ (i : Issue) (s : State) (a : W64) (r : List W64), s.issuesNow i → (s.core i.core.val).istk = a :: r →
      let k := i.core.val
      let u := s.issued k i.core.isLt
      let got := fun (n : Nat) => u.loadDev k a.toNat n
      let clean := fun (n : Nat) (w : Bool) => a.toNat % n = 0 ∧ (if w then s.storeWait k a.toNat n else s.loadWait k a.toNat n) = none ∧ ∃ segs, (s.xlateRange k (s.access k w) a.toNat n).2 = .inr segs
      let loads := fun (wd : LoadWidth) (n : Nat) (f : Nat → W64) => clean n false → (s.loadDev k a.toNat n).poison = false → s.onCore k 1 1 0 0 →
        exec (.ld i wd) s = .next ((((got n).st.ipop k 1).ipush k (f (leNat (got n).bytes))).skip k 4)
      (∀ wd, clean (loadBytes wd) false → (s.loadDev k a.toNat (loadBytes wd)).poison = true → s.onCore k 1 1 0 0 →
          let p := (s.loadDev k a.toNat (loadBytes wd)).st
          s.masked k 8 = false → p.masked k 8 = false →
          exec (.ld i wd) s = .next ((p.cancelWait k i.core.isLt).enter k { code := 8, precise := true, addr := BitVec.ofNat 64 a.toNat } ((p.cancelWait k i.core.isLt).core k).pc))
        ∧ loads .b 1 (fun x => (BitVec.ofNat 8 x).signExtend 64) ∧ loads .bu 1 (BitVec.ofNat 64) ∧ loads .h 2 (fun x => (BitVec.ofNat 16 x).signExtend 64) ∧ loads .hu 2 (BitVec.ofNat 64)
        ∧ loads .w 4 (fun x => (BitVec.ofNat 32 x).signExtend 64) ∧ loads .wu 4 (BitVec.ofNat 64) ∧ loads .d 8 (BitVec.ofNat 64)
        ∧ (∀ x q (wd : StoreWidth), r = x :: q → s.onCore k 2 0 0 0 → clean (storeBytes wd) true →
            exec (.st i wd) s = .next (((u.storeDev k a.toNat (leBytes (storeBytes wd) x.toNat) false).ipop k 2).skip k 4))
        ∧ (∀ fw : FloatWidth, s.onCore k 1 0 0 1 → clean (widthOf fw / 8) false →
            exec (.fld i fw) s = .next ((((got (widthOf fw / 8)).st.ipop k 1).vpush k ⟨BitVec.ofNat 8192 (leNat (got (widthOf fw / 8)).bytes % 2 ^ widthOf fw), if (got (widthOf fw / 8)).poison then 1 else 0⟩).skip k 4))
        ∧ ∀ (y : VSlot) (ys : List VSlot) (fw : FloatWidth), (s.core k).vstk = y :: ys → s.onCore k 1 0 1 0 → clean (widthOf fw / 8) true →
            exec (.fst i fw) s = .next ((((u.storeDev k a.toNat (leBytes (widthOf fw / 8) (y.v.toNat % 2 ^ widthOf fw)) (y.poison.getLsbD 0)).ipop k 1).vpop k 1).skip k 4))
  ∧ (∀ (i : Issue) (s : State) (wd : LaneWidth) (a : W64) (r : List W64), s.issuesNow i → (s.core i.core.val).istk = a :: r →
      let k := i.core.val
      let n := min (8192 / (8 * laneBytes wd)) (s.vlen k) * laneBytes wd
      let u := s.issued k i.core.isLt
      (s.onCore k 1 0 0 1 → n = 0 → exec (.vld i wd) s = .next (s.after i r (⟨0, 0⟩ :: (s.core k).vstk)))
        ∧ (s.onCore k 1 0 0 1 → n ≠ 0 → s.loadWait k a.toNat n = none → (∃ segs, (s.xlateRange k (s.access k false) a.toNat n).2 = .inr segs) →
            exec (.vld i wd) s = .next ((((u.loadDev k a.toNat n).st.ipop k 1).vpush k ⟨BitVec.ofNat 8192 (leNat (u.loadDev k a.toNat n).bytes), u.loadPoison k a.toNat n⟩).skip k 4))
        ∧ (s.onCore k 1 0 0 1 → n ≠ 0 → ∀ c x, (s.xlateRange k (s.access k false) a.toNat n).2 = .inl (c, x) →
            let p := s.probe k false a.toNat n
            (p.masked k 4 = false → exec (.vld i wd) s = .next ((p.cancelWait k i.core.isLt).enter k { code := 4, precise := true, addr := BitVec.ofNat 64 x, info := BitVec.ofNat 64 c } ((p.cancelWait k i.core.isLt).core k).pc))
              ∧ (p.masked k 4 = true → exec (.vld i wd) s = .next (((((p.noteMasked k 4).issued k i.core.isLt).ipop k 1).vpush k ⟨0, 0⟩).skip k 4)))
        ∧ (∀ v vs, (s.core k).vstk = v :: vs → s.onCore k 1 0 1 0 → n ≠ 0 → ∀ c x, (s.xlateRange k (s.access k true) a.toNat n).2 = .inl (c, x) →
            let p := s.probe k true a.toNat n
            (p.masked k 4 = false → exec (.vst i wd) s = .next ((p.cancelWait k i.core.isLt).enter k { code := 4, precise := true, addr := BitVec.ofNat 64 x, info := BitVec.ofNat 64 c } ((p.cancelWait k i.core.isLt).core k).pc))
              ∧ (p.masked k 4 = true → exec (.vst i wd) s = .next (((((p.noteMasked k 4).issued k i.core.isLt).ipop k 1).vpop k 1).skip k 4)))
        ∧ ∀ v vs, (s.core k).vstk = v :: vs → s.onCore k 1 0 1 0 →
            (n = 0 → exec (.vst i wd) s = .next (s.after i r vs))
              ∧ (n ≠ 0 → s.storeWait k a.toNat n = none → (∃ segs, (s.xlateRange k (s.access k true) a.toNat n).2 = .inr segs) →
                exec (.vst i wd) s = .next ((((u.storeRuns k a.toNat (leBytes n v.v.toNat) (quarterRuns v.poison n)).ipop k 1).vpop k 1).skip k 4)))
  ∧ (∀ (i : Issue) (s : State) (a : W64) (r : List W64) (pa : Nat), s.issuesNow i → (s.core i.core.val).istk = a :: r →
      let k := i.core.val
      let v := (s.core k).vstk
      s.cacheOn k = false → (s.ae k).writes = [] → (s.ae k).frame = [] → (s.ae k).again = [] → (s.region (regionOfPa pa)).fenced = false → pa % 2 ^ 21 = a.toNat % 2 ^ 21 →
      let at_ := fun (w : Bool) (n : Nat) => a.toNat < 2 ^ 48 ∧ a.toNat % 2 ^ 21 + n ≤ 2 ^ 21 ∧
        ∃ p, (s.ae k).cached a.toNat = some p ∧ p.allows (s.access k w) = none ∧ pa = p.frame + a.toNat % 2 ^ p.size
      let rest := fun (t : State) => (t.core k).pc = (s.core k).pc + 4 ∧ t.mem = s.mem ∧ t.memPoison = s.memPoison ∧ (t.core k).dmem = (s.core k).dmem ∧ (∀ j, t.cache j = s.cache j) ∧ ∀ j, j ≠ k → t.core j = s.core j
      let loads := fun (ins : Instr) (n : Nat) (ints : List W64) (slots : List VSlot) => at_ false n → s.loadWait k a.toNat n = none →
        ∃ t, exec ins s = .next t ∧ (t.core k).istk = ints ∧ (t.core k).vstk = slots ∧ (t.ae k).writes = [] ∧ rest t
      let stores := fun (ins : Instr) (n : Nat) (data : List Byte) (p : Bool) (ints : List W64) (slots : List VSlot) => at_ true n → s.storeWait k a.toNat n = none →
        ∃ t, exec ins s = .next t ∧ (t.core k).istk = ints ∧ (t.core k).vstk = slots ∧ (t.ae k).writes = [{ parts := [⟨pa, data, p⟩] }] ∧ rest t
      let word := fun (n : Nat) => leNat (memBytes s.mem pa n)
      let bad := setHas s.memPoison (pa / 128)
      (s.onCore k 1 1 0 0 → bad = false → ∀ wd, a.toNat % loadBytes wd = 0 → loads (.ld i wd) (loadBytes wd) (loadExtend wd (word (loadBytes wd)) :: r) v)
        ∧ (∀ x q, r = x :: q → s.onCore k 2 0 0 0 → (s.cache k).tray = [] → (s.cache k).prefetch = [] →
            ∀ wd, a.toNat % storeBytes wd = 0 → stores (.st i wd) (storeBytes wd) (leBytes (storeBytes wd) x.toNat) false q v)
        ∧ (s.onCore k 1 0 0 1 → ∀ fw, a.toNat % (widthOf fw / 8) = 0 →
            loads (.fld i fw) (widthOf fw / 8) r (⟨BitVec.ofNat 8192 (word (widthOf fw / 8)), if bad then 1 else 0⟩ :: v))
        ∧ (∀ y ys, v = y :: ys → s.onCore k 1 0 1 0 → (s.cache k).tray = [] → (s.cache k).prefetch = [] →
            ∀ fw, a.toNat % (widthOf fw / 8) = 0 → stores (.fst i fw) (widthOf fw / 8) (leBytes (widthOf fw / 8) y.v.toNat) (y.poison.getLsbD 0) r ys)
        ∧ (s.onCore k 1 0 0 1 → ∀ wd, s.vlen k * laneBytes wd = 128 → pa % 128 = 0 →
            loads (.vld i wd) 128 r (⟨BitVec.ofNat 8192 (word 128), if bad then 1 else 0⟩ :: v))
        ∧ (∀ y ys, v = y :: ys → s.onCore k 1 0 1 0 → (s.cache k).tray = [] → (s.cache k).prefetch = [] → ∀ wd, s.vlen k * laneBytes wd = 128 → pa % 128 = 0 →
            stores (.vst i wd) 128 (leBytes 128 y.v.toNat) (y.poison.getLsbD 0) r ys))

/-- Scalar arithmetic: the result over its slot, poisoned when an operand is, and its flags raised for the instruction (R112, R139, R169). -/
def Obligations.ScalarArithmeticResults : Prop :=
  ∀ (i : Issue) (s : State) (fw : FloatWidth), s.issuesNow i →
    let k := i.core.val
    let w := widthOf fw
    let f := fmtOf fw
    let gives := fun (ins : Instr) (ops : List VSlot) (r : List VSlot) (x : FRes) =>
      exec ins s = .next (((s.landed i (s.core k).istk (⟨BitVec.ofNat 8192 (x.v % 2 ^ w), if ops.any (fun o => o.poison != 0) then 15 else 0⟩ :: r)).raiseArith k (s.core k).pc x.fl).skip k 4)
    let val := fun (o : VSlot) => o.v.toNat % 2 ^ w
    (∀ x r, (s.core k).vstk = x :: r → s.onCore k 0 0 1 1 →
        gives (.fsqrt i fw) [x] r (f.sqrt (val x)) ∧ gives (.fneg i fw) [x] r ⟨val x ^^^ 2 ^ (w - 1), 0⟩ ∧ gives (.fabs i fw) [x] r ⟨val x % 2 ^ (w - 1), 0⟩)
      ∧ (∀ x y r, (s.core k).vstk = y :: x :: r → s.onCore k 0 0 2 1 →
        gives (.fadd i fw) [x, y] r (f.add (val x) (val y)) ∧ gives (.fsub i fw) [x, y] r (f.sub (val x) (val y)) ∧ gives (.fmul i fw) [x, y] r (f.mul (val x) (val y))
          ∧ gives (.fdiv i fw) [x, y] r (f.div (val x) (val y)) ∧ gives (.fmin i fw) [x, y] r (f.minMax false (val x) (val y)) ∧ gives (.fmax i fw) [x, y] r (f.minMax true (val x) (val y)))
      ∧ ∀ x y z r, (s.core k).vstk = z :: y :: x :: r → s.onCore k 0 0 3 1 → gives (.ffma i fw) [x, y, z] r (f.fma (val x) (val y) (val z))

/-- Comparisons, conversions and moves between the stacks; a poisoned operand does not reach an integer or a predicate (R89, R134, R139, R169). -/
def Obligations.ScalarCompareConvertMove : Prop :=
  ∀ (i : Issue) (s : State) (fw : FloatWidth), s.issuesNow i →
    let k := i.core.val
    let w := widthOf fw
    let f := fmtOf fw
    let pc := (s.core k).pc
    let l := (s.core k).istk
    (∀ (x y : VSlot) (r : List VSlot) (cc pt : BitVec 4), (s.core k).vstk = y :: x :: r → s.onCore k 0 0 2 0 → x.poison = 0 → y.poison = 0 → cc.toNat < 8 →
        let c := f.cmp cc.toNat (x.v.toNat % 2 ^ w) (y.v.toNat % 2 ^ w)
        exec (.fcmp i fw cc pt) s = .next ((((s.landed i l r).setPred k pt.toNat c.1).raiseArith k pc c.2).skip k 4))
      ∧ (∀ (a : W64) (r : List W64), l = a :: r → s.onCore k 1 0 0 1 →
        exec (.cvtif i fw) s = .next (((s.landed i r (⟨BitVec.ofNat 8192 ((f.ofInt a.toInt).v % 2 ^ w), 0⟩ :: (s.core k).vstk)).raiseArith k pc (f.ofInt a.toInt).fl).skip k 4)
          ∧ exec (.fmovi i fw) s = .next (s.after i r (⟨BitVec.ofNat 8192 (a.toNat % 2 ^ w), 0⟩ :: (s.core k).vstk)))
      ∧ (∀ (x : VSlot) (r : List VSlot), (s.core k).vstk = x :: r → s.onCore k 0 1 1 0 → x.poison = 0 →
        exec (.imovf i fw) s = .next (s.after i (BitVec.ofNat 64 (x.v.toNat % 2 ^ w) :: l) r)
          ∧ exec (.cvtfi i fw) s = .next (((s.landed i (BitVec.ofInt 64 (f.toInt 64 (x.v.toNat % 2 ^ w)).1 :: l) r).raiseArith k pc (f.toInt 64 (x.v.toNat % 2 ^ w)).2).skip k 4))
      ∧ (∀ (x : VSlot) (r : List VSlot), (s.core k).vstk = x :: r → s.onCore k 0 1 1 0 → x.poison ≠ 0 → s.masked k 8 = false →
        exec (.imovf i fw) s = .next ((s.cancelWait k i.core.isLt).enter k { code := 8, precise := true } pc))
      ∧ ∀ (x : VSlot) (r : List VSlot), (s.core k).vstk = x :: r → s.onCore k 0 0 1 1 →
        let narrow := cvtFmt fmt64 fmt32 (x.v.toNat % 2 ^ 64)
        let wide := cvtFmt fmt32 fmt64 (x.v.toNat % 2 ^ 32)
        let p : BitVec 4 := if x.poison = 0 then 0 else 15
        exec (.cvtff i .f32) s = .next (((s.landed i l (⟨BitVec.ofNat 8192 (narrow.v % 2 ^ 32), p⟩ :: r)).raiseArith k pc narrow.fl).skip k 4)
          ∧ exec (.cvtff i .f64) s = .next (((s.landed i l (⟨BitVec.ofNat 8192 (wide.v % 2 ^ 64), p⟩ :: r)).raiseArith k pc wide.fl).skip k 4)

/-! ## Long vectors -/

/-- Lane arithmetic: each active lane of the result is the operation on the lanes of the operands, every other lane is 0, the flags are those of the active lanes together, poison goes quarter by quarter (R155, R156, R162 to R164, R169). -/
def Obligations.LaneArithmeticResults : Prop :=
  ∀ (i : Issue) (s : State) (f : LaneFormat), s.issuesNow i →
    let k := i.core.val
    let w := laneBits f
    let n := min (8192 / w) (s.vlen k)
    let gives := fun (ins : Instr) (p : BitVec 4) (r : List VSlot) (g : Nat → FRes) => ∃ v : BitVec 8192,
      exec ins s = .next (((s.landed i (s.core k).istk (⟨v, p⟩ :: r)).raiseArith k (s.core k).pc (((List.range n).map (fun l => (g l).fl)).foldl (· ||| ·) 0)).skip k 4)
        ∧ ∀ l, l < 8192 / w → lane w v.toNat l = if l < n then (g l).v % 2 ^ w else 0
    let at_ := fun (o : VSlot) (l : Nat) => lane w o.v.toNat l
    (∀ a r, (s.core k).vstk = a :: r → s.onCore k 0 0 1 1 →
        gives (.vsqrt i f) a.poison r (fun l => laneSqrt f (at_ a l)) ∧ gives (.vneg i f) a.poison r (fun l => ⟨at_ a l ^^^ 2 ^ (w - 1), 0⟩) ∧ gives (.vabs i f) a.poison r (fun l => ⟨at_ a l % 2 ^ (w - 1), 0⟩)
          ∧ (f ≠ .k16 → gives (.vexp i f) a.poison r (fun l => laneExp f (at_ a l)) ∧ gives (.vlog i f) a.poison r (fun l => laneLog f (at_ a l))))
      ∧ (∀ a b r, (s.core k).vstk = b :: a :: r → s.onCore k 0 0 2 1 →
        let p := a.poison ||| b.poison
        gives (.vadd i f) p r (fun l => laneAdd f (at_ a l) (at_ b l)) ∧ gives (.vsub i f) p r (fun l => laneSub f (at_ a l) (at_ b l)) ∧ gives (.vmul i f) p r (fun l => laneMul f (at_ a l) (at_ b l))
          ∧ gives (.vdiv i f) p r (fun l => laneDiv f (at_ a l) (at_ b l)) ∧ gives (.vmin i f) p r (fun l => laneMinMax f false (at_ a l) (at_ b l)) ∧ gives (.vmax i f) p r (fun l => laneMinMax f true (at_ a l) (at_ b l))
          ∧ ∀ cc : BitVec 4, cc.toNat < 8 → gives (.vcmp i f cc) p r (fun l => ⟨if (laneCmp f cc.toNat (at_ a l) (at_ b l)).1 then 2 ^ w - 1 else 0, (laneCmp f cc.toNat (at_ a l) (at_ b l)).2⟩))
      ∧ ∀ a b c r, (s.core k).vstk = c :: b :: a :: r → s.onCore k 0 0 3 1 →
        let p := a.poison ||| b.poison ||| c.poison
        gives (.vfma i f) p r (fun l => laneFma f (at_ a l) (at_ b l) (at_ c l)) ∧ gives (.vsel i f) p r (fun l => ⟨if at_ a l = 0 then at_ c l else at_ b l, 0⟩)

/-- Conversions between lane widths: which lane of which operand each lane of the result comes from, and the lane offset of the HI forms (R155, R161, R169). -/
def Obligations.LaneConversionResults : Prop :=
  ∀ (i : Issue) (s : State) (se : BitVec 8), s.issuesNow i →
    let k := i.core.val
    let gives := fun (w o : Nat) (ins : Instr) (p : BitVec 4) (r : List VSlot) (g : Nat → FRes) => ∃ v : BitVec 8192,
      let n := min (8192 / w) (s.vlen k - o)
      exec ins s = .next (((s.landed i (s.core k).istk (⟨v, if p = 0 then 0 else 15⟩ :: r)).raiseArith k (s.core k).pc (((List.range n).map (fun l => (g l).fl)).foldl (· ||| ·) 0)).skip k 4)
        ∧ ∀ l, l < 8192 / w → lane w v.toNat l = if l < n then (g l).v % 2 ^ w else 0
    (∀ a r, (s.core k).vstk = a :: r → s.onCore k 0 0 1 1 →
        let x := a.v.toNat
        gives 32 0 (.vcvtF32K16Lo i se) a.poison r (fun l => fmt32.ofK se.toInt (lane 16 x l)) ∧ gives 32 256 (.vcvtF32K16Hi i se) a.poison r (fun l => fmt32.ofK se.toInt (lane 16 x (256 + l)))
          ∧ gives 64 0 (.vcvtF64F32Lo i) a.poison r (fun l => cvtFmt fmt32 fmt64 (lane 32 x l)) ∧ gives 64 128 (.vcvtF64F32Hi i) a.poison r (fun l => cvtFmt fmt32 fmt64 (lane 32 x (128 + l)))
          ∧ gives 32 0 (.vcvtI32F32 i) a.poison r (fun l => ⟨((fmt32.toInt 32 (lane 32 x l)).1 % 2 ^ 32).toNat, (fmt32.toInt 32 (lane 32 x l)).2⟩)
          ∧ gives 32 0 (.vcvtF32I32 i) a.poison r (fun l => fmt32.ofInt (BitVec.ofNat 32 (lane 32 x l)).toInt))
      ∧ ∀ a b r, (s.core k).vstk = b :: a :: r → s.onCore k 0 0 2 1 →
        let x := a.v.toNat
        let y := b.v.toNat
        gives 16 0 (.vcvtK16F32 i se) (a.poison ||| b.poison) r (fun l => fmt32.toK 10 se.toInt (if l < 256 then lane 32 x l else lane 32 y (l - 256)))
          ∧ gives 32 0 (.vcvtF32F64 i) (a.poison ||| b.poison) r (fun l => cvtFmt fmt64 fmt32 (if l < 128 then lane 64 x l else lane 64 y (l - 128)))

/-- Reductions over the active lanes and VSETVL: the tree of R163 on the lanes in order, the result a scalar over its slot (R154, R162, R163, R169). Movement between lanes and scalars: broadcast, lane read and lane write at any index, slides, the iota (R162, R169). -/
def Obligations.ReductionAndMovementResults : Prop :=
  (∀ (i : Issue) (s : State) (f : LaneFormat), s.issuesNow i →
      let k := i.core.val
      let w := laneBits f
      (∀ (a : W64) (r : List W64), (s.core k).istk = a :: r → s.onCore k 1 1 0 0 →
          let n := if a.toNat ≤ 512 then a.toNat else 512
          ∃ t, exec (.vsetvl i) s = .next t ∧ t.vlen k = n ∧ (t.core k).istk = BitVec.ofNat 64 n :: r ∧ (t.core k).vstk = (s.core k).vstk ∧ (t.core k).pc = (s.core k).pc + 4
            ∧ t.mem = s.mem ∧ (∀ o, o ≠ 0x230 → o ≠ 0x4C8 → o ≠ 0x4CC → t.reg (.cu k) o = s.reg (.cu k) o) ∧ ∀ j, j ≠ k → t.core j = s.core j)
        ∧ (∀ a r, (s.core k).vstk = a :: r → s.onCore k 0 0 1 1 →
          let lanes := (List.range (min (8192 / w) (s.vlen k))).map (fun l => lane w a.v.toNat l)
          let gives := fun (ins : Instr) (x : FRes) => exec ins s
            = .next (((s.landed i (s.core k).istk (⟨BitVec.ofNat 8192 (x.v % 2 ^ scalarBits f), if a.poison = 0 then 0 else 15⟩ :: r)).raiseArith k (s.core k).pc x.fl).skip k 4)
          gives (.vrmax i f) (reduceMinMax f true lanes) ∧ gives (.vrmin i f) (reduceMinMax f false lanes)
            ∧ gives (.vrsum i f) (match f with
                | .f32 => treeOf fmt32.add 13 lanes | .f64 => treeOf fmt64.add 13 lanes | .k16 => treeOf fmt32.add 13 (lanes.map (fun x => (fmt32.ofK 0 x).v))))
        ∧ ∀ (x y z w : Nat), (treeOf fmt32.add 13 []).v = 0 ∧ treeOf fmt32.add 13 [x] = ⟨x, 0⟩ ∧ (treeOf fmt32.add 13 [x, y, z, w]).v = (fmt32.add (fmt32.add x y).v (fmt32.add z w).v).v)
  ∧ (∀ (i : Issue) (s : State) (f : LaneFormat), s.issuesNow i →
      let k := i.core.val
      let w := laneBits f
      let m := 8192 / w
      let n := min m (s.vlen k)
      let pc := (s.core k).pc
      let gives := fun (ins : Instr) (fl : Nat) (ints : List W64) (slots : List VSlot) (p : BitVec 4) (g : Nat → Nat) => ∃ v : BitVec 8192,
        exec ins s = .next (((s.landed i ints (⟨v, p⟩ :: slots)).raiseArith k pc fl).skip k 4) ∧ ∀ l, l < m → lane w v.toNat l = g l
      let all := fun (b : BitVec 4) => if b = 0 then (0 : BitVec 4) else 15
      (s.onCore k 0 0 0 1 → gives (.viota i f) 0 (s.core k).istk (s.core k).vstk 0 (fun l => if l < n then laneOfNat f l % 2 ^ w else 0))
        ∧ (∀ x r, (s.core k).vstk = x :: r → s.onCore k 0 0 1 1 →
          let e := ofScalar f (x.v.toNat % 2 ^ scalarBits f)
          gives (.vbcast i f) e.fl (s.core k).istk r (all x.poison) (fun l => if l < n then e.v % 2 ^ w else 0))
        ∧ (∀ (a : W64) (q : List W64) v r, (s.core k).istk = a :: q → (s.core k).vstk = v :: r →
          (s.onCore k 1 0 1 1 → gives (.vslidedn i f) 0 q r (all v.poison) (fun l => if l < n ∧ l + a.toNat < m then lane w v.v.toNat (l + a.toNat) else 0)
              ∧ gives (.vslideup i f) 0 q r (all v.poison) (fun l => if l < n ∧ a.toNat ≤ l then lane w v.v.toNat (l - a.toNat) else 0))
            ∧ (s.onCore k 1 0 1 2 → exec (.vlane i f) s
                = .next (s.after i q (⟨BitVec.ofNat 8192 (if a.toNat < m then toScalar f (lane w v.v.toNat a.toNat) else 0), all v.poison⟩ :: v :: r))))
        ∧ ∀ (a : W64) (q : List W64) x v r, (s.core k).istk = a :: q → (s.core k).vstk = x :: v :: r → s.onCore k 1 0 2 1 →
          let e := ofScalar f (x.v.toNat % 2 ^ scalarBits f)
          gives (.vins i f) e.fl q r (all (x.poison ||| v.poison)) (fun l => if l = a.toNat then e.v % 2 ^ w else lane w v.v.toNat l))

/-- VQPOP takes the oldest n entries of VQ0, the lowest quarter first, an invalid entry as zeros, with tags, valid and poison bits beside them, and otherwise waits; VQPUSH appends n entries to VQ1, the lowest quarter first, each with its row, tag, valid bit and poison, and otherwise waits (R166 to R169). -/
def Obligations.TileQueueExchange : Prop :=
  ∀ (i : Issue) (s : State) (c : BitVec 2), s.issuesNow i → c ≠ 3 →
    let k := i.core.val
    let n := 2 ^ c.toNat
    let l := (s.queue k 12).take n
    (s.onCore k 0 1 0 1 → s.vqReady k n = true → s.frozen (.ae k) = false →
        exec (.vqpop i c) s = .next ((s.after i (BitVec.ofNat 64 (packWords 10 (l.map (fun e => e.tag.toNat)) + 2 ^ 40 * packBits (l.map (·.valid)) + 2 ^ 44 * packBits (l.map (·.poison))) :: (s.core k).istk)
          (⟨BitVec.ofNat 8192 (packWords 2048 (l.map (fun e => if e.valid then e.row.toNat else 0))), BitVec.ofNat 4 (packBits (l.map (·.poison)))⟩ :: (s.core k).vstk)).setQueue k 12 ((s.queue k 12).drop n)))
      ∧ (s.onCore k 0 1 0 1 → s.vqReady k n = false → exec (.vqpop i c) s = .next (s.waits k i.core.isLt (.vqpop i c) .vqpop))
      ∧ ∀ (a : W64) (r : List W64) (v : VSlot) (vs : List VSlot), (s.core k).istk = a :: r → (s.core k).vstk = v :: vs → s.onCore k 1 0 1 0 →
        (s.room k 13 n = true → s.frozen (.ae k) = false → exec (.vqpush i c) s = .next (((((s.issued k i.core.isLt).vqPushes k a.toNat v n).ipop k 1).vpop k 1).skip k 4))
          ∧ (s.room k 13 n = false → exec (.vqpush i c) s = .next (s.waits k i.core.isLt (.vqpush i c) .vqpush))
          ∧ (let t := (s.issued k i.core.isLt).vqPushes k a.toNat v n
            let entry := fun (e : QEntry) => (e.row, e.valid, e.tag, e.poison)
            (t.queue k 13).map entry = (s.queue k 13).map entry ++ (List.range n).map (fun j => (BitVec.ofNat 2048 (v.v.toNat / 2 ^ (2048 * j)), a.getLsbD (40 + j), BitVec.ofNat 10 (a.toNat / 2 ^ (10 * j)), a.getLsbD (44 + j) || v.poison.getLsbD j))
              ∧ (∀ j q, (j, q) ≠ (k, 13) → t.queue j q = s.queue j q) ∧ t.mem = s.mem ∧ (t.core k).istk = (s.core k).istk ∧ (t.core k).vstk = (s.core k).vstk)

/-- VFOLD steps every generator once and adds the active lanes with their bits; VFOLD.SAVE writes the 256 states as 1,024 bytes at an aligned place, VFOLD.LOAD reads them, a word of 0 as 1 (R108, R179); the cycles these two wait at their banks count in DMEM_CONFLICT (R129), a free number of them (log 30). -/
def Obligations.FoldResults : Prop :=
  ∀ (i : Issue) (s : State), s.issuesNow i →
    let k := i.core.val
    (∀ a b r, (s.core k).vstk = b :: a :: r → s.onCore k 0 0 2 1 → ∃ v : BitVec 8192,
        let g := (s.gensOf k).map (fun x => galois x.toNat)
        let sum := fun (l : Nat) => foldAdd (lane 32 a.v.toNat l) (lane 32 b.v.toNat l) (g.getD l 1)
        let fl := ((List.range (min 256 (s.vlen k))).map (fun l => (sum l).fl)).foldl (· ||| ·) 0
        exec (.vfold i) s = .next ((((s.landed i (s.core k).istk (⟨v, if a.poison ||| b.poison = 0 then 0 else 15⟩ :: r)).modCore k (fun c => { c with gens := g.map (BitVec.ofNat 32) })).raiseArith k (s.core k).pc fl).skip k 4)
          ∧ ∀ l, l < 256 → lane 32 v.toNat l = if l < s.vlen k then (sum l).v % 2 ^ 32 else 0)
      ∧ ∀ (a : W64) (r : List W64), (s.core k).istk = a :: r → s.onCore k 1 0 0 0 → a.toNat % 4 = 0 → a.toNat + 1024 ≤ 0x80000 → (s.priv k = true ∨ a.toNat + 1024 ≤ s.reg (.cu k) 0x420) →
        (exec (.vfoldSave i) s = .next (((((s.issued k i.core.isLt).dmemWriteP k a.toNat ((s.gensOf k).flatMap (fun v => u32 v.toNat)) false).ipop k 1).bankWait k).skip k 4))
          ∧ ∃ t, exec (.vfoldLoad i) s = .next t ∧ (t.core k).istk = r ∧ (t.core k).vstk = (s.core k).vstk ∧ (t.core k).dmem = (s.core k).dmem ∧ t.mem = s.mem ∧ t.frames = ((s.issued k i.core.isLt).bankWait k).frames
            ∧ ∀ l, l < 256 → (t.core k).gens[l]? = some (if s.dmemNat k (a.toNat + 4 * l) 4 = 0 then 1 else BitVec.ofNat 32 (s.dmemNat k (a.toNat + 4 * l) 4))

/-- Issue of the resumable instructions: with the progress register inactive each begins at chunk 0 with its own first partials; with it active the instruction takes up the chunk it stopped at, a wide-precision one with the partials of its saved slot, which it pops (R170 to R176, R181). The end of a chunk that meets no fault: MCOPY's bytes are written, a reduction takes the chunk's elements in; after the last chunk the instruction completes: MCOPY pops its operands, a sum leaves the tree of its partials in place of them, VWRED.LSE their log-sum-exp, VXENT that less x_t, or a NaN for a t outside the operand (R163, R171, R174, R176, R182). An interrupt at a chunk's end and a fault of the next chunk's reads stop it: NEXT_CHUNK, OP and the active bit in the progress register, the partials in one slot, the operands and the PC as they are, then the cause is taken (R175, R176, R178). That a chunk's bytes are read as it begins and its results written as it ends is the model's choice (log 27), as is when the flags of finished chunks are raised (log 125). -/
def Obligations.ResumableInstructions : Prop :=
  (∀ (i : Issue) (s : State), s.issuesNow i →
      let k := i.core.val
      let u := s.issued k i.core.isLt
      let goes := fun (ins : Instr) (j : Nat) => s.openGoes k ((s.resumArgs k ins).2.1 + 16384 * j) (chunkBytes (s.resumArgs k ins).2.2 j) = true ∧ s.copyHeld k ins j = false
      let starts := fun (ins : Instr) (n off : Nat) (ps : List W64) => (s.reg (.cu k) off).testBit 31 = false → s.onCore k n n 0 (if isCopy ins then 0 else 1) → goes ins 0 →
        exec ins s = .next (u.chunkBegin k { instr := ins, chunk := 0, partials := ps, flags := 0, poison := false })
      let takesUp := fun (ins : Instr) (n op : Nat) => (s.reg (.cu k) 0x240).testBit 31 = true → s.reg (.cu k) 0x240 / 2 ^ 16 % 16 = op → ∀ v vs, (s.core k).vstk = v :: vs → s.onCore k n n 1 1 → goes ins (s.reg (.cu k) 0x240 % 2 ^ 13) →
        exec ins s = .next ((u.vpop k 1).chunkBegin k { instr := ins, chunk := s.reg (.cu k) 0x240 % 2 ^ 13, partials := (List.range 128).map (fun l => BitVec.ofNat 64 (lane 64 v.v.toNat l)), flags := 0, poison := v.poison != 0 })
      let pairs := (List.replicate 64 [(0xFFF0000000000000 : W64), 0]).flatten
      starts (.vwredSum i) 2 0x240 (List.replicate 128 0) ∧ starts (.vwredSsq i) 2 0x240 (List.replicate 128 0) ∧ starts (.vwredLse i) 2 0x240 pairs ∧ starts (.vxent i) 3 0x240 pairs
        ∧ starts (.mcopy i) 3 0x244 (List.replicate 128 0)
        ∧ takesUp (.vwredSum i) 2 0 ∧ takesUp (.vwredSsq i) 2 1 ∧ takesUp (.vwredLse i) 2 2 ∧ takesUp (.vxent i) 3 3
        ∧ (s.onCore k 3 3 0 0 → (s.reg (.cu k) 0x244).testBit 31 = true → s.reg (.cu k) 0x244 / 2 ^ 16 % 16 = 0 → goes (.mcopy i) (s.reg (.cu k) 0x244 % 2 ^ 13) →
            exec (.mcopy i) s = .next (u.chunkBegin k { instr := .mcopy i, chunk := s.reg (.cu k) 0x244 % 2 ^ 13, partials := [], flags := 0, poison := false })))
  ∧ (∀ (k : Fin 128) (s : State) (r : Resum), (s.core k.val).resum = some r → s.frozen (.cu k.val) = false → s.ctxFrozen k.val = false → s.pwr.ready = true →
      let K := k.val
      let a := s.resumArgs K r.instr
      let ends := exec (.resumableChunkEnd k) s
      (∀ d, r.data = some d → r.chunk < chunkCount a.2.2 →
          (isCopy r.instr = true → s.copyHeld K r.instr r.chunk = false → s.rangeFaults K true false (a.1 + 16384 * r.chunk) (chunkBytes a.2.2 r.chunk) = [] →
            let w := s.chunkWrites K (a.1 + 16384 * r.chunk) d
            let u := w.1.writeLines K none w.2
            w.1.writesGo K w.2 = true →
            ends = .next (u.chunkNext K k.isLt { r with data := none, chunk := r.chunk + 1 })
              ∧ (chunkCount (u.resumArgs K r.instr).2.2 = r.chunk + 1 → (∃ x, r.instr = .mcopy x) →
                  ∃ t, ends = .next t ∧ (t.core K).resum = none ∧ (t.core K).istk = (u.core K).istk.drop 3 ∧ (t.core K).pc = (u.core K).pc + 4 ∧ t.mem = u.mem))
          ∧ (isCopy r.instr = false → ends = .next (s.chunkNext K k.isLt { r.absorb d with chunk := r.chunk + 1 })
            ∧ (r.chunk + 1 < chunkCount a.2.2 → (s.interruptNow K).isSome = true → s.ihold K = false → s.inDf K = false →
                let u := s.resumStop K { r.absorb d with chunk := r.chunk + 1 }
                ∀ c, u.boundaryCause K = some c → ends = .next (((u.cancelWait K k.isLt).unpend K c.code).enter K c (((u.cancelWait K k.isLt).unpend K c.code).core K).pc))))
        ∧ (r.data = none → r.chunk < chunkCount a.2.2 → isCopy r.instr = false → s.openGoes K (a.2.1 + 16384 * r.chunk) (chunkBytes a.2.2 r.chunk) = true → s.masked K 4 = false → ∀ c x, c ≠ xHeld →
            (s.xlateRange K (s.access K false) (a.2.1 + 16384 * r.chunk) (chunkBytes a.2.2 r.chunk)).2 = .inl (c, x) →
            let u := s.resumStop K r
            u.boundaryCause K = none → ends = .next (u.enter K { code := 4, precise := true, addr := BitVec.ofNat 64 x, info := BitVec.ofNat 64 c } (u.core K).pc))
        ∧ (chunkCount a.2.2 ≤ r.chunk →
          let done := fun (n : Nat) (v : Nat) (poison : Bool) => ∃ t, ends = .next t ∧ (t.core K).resum = none ∧ (t.core K).istk = (s.core K).istk.drop n ∧ (t.reg (.cu K) 0x240).testBit 31 = false
            ∧ (t.core K).vstk = ⟨BitVec.ofNat 8192 (v % 2 ^ 64), if poison then 15 else 0⟩ :: (s.core K).vstk ∧ (t.core K).pc = (s.core K).pc + 4 ∧ t.mem = s.mem
          (∀ (x : Issue) (v : FRes), ((r.instr = .vwredSum x ∨ r.instr = .vwredSsq x) ∧ v = treeOf fmt64.add 13 (r.partials.map (·.toNat))) ∨ (r.instr = .vwredLse x ∧ v = lseResult r.partials) → done 2 v.v r.poison)
            ∧ ∀ (x : Issue), r.instr = .vxent x →
              let t := (s.itop K 0).toNat
              let d := (s.chunkData K false (a.2.1 + 4 * t) 4).2
              (a.2.2 ≤ 4 * t → done 3 0x7FF8000000000000 r.poison)
                ∧ (4 * t < a.2.2 → s.rangeFaults K false false (a.2.1 + 4 * t) 4 = [] → s.openGoes K (a.2.1 + 4 * t) 4 = true →
                  done 3 (fmt64.sub (lseResult r.partials).v (widen32 (leNat (d.flatMap (·.1))))).v (r.poison || d.any (·.2)))))
  ∧ ∀ (s : State) (K : Nat) (r : Resum), isCopy r.instr = false → r.partials.length = 128 → r.chunk < 2 ^ 13 →
      let u := s.resumStop K r
      u.reg (.cu K) 0x240 = 2 ^ 31 + resumOp r.instr * 2 ^ 16 + r.chunk ∧ (u.core K).resum = none ∧ (u.core K).istk = (s.core K).istk ∧ (u.core K).pc = (s.core K).pc ∧ u.mem = s.mem ∧ (u.core K).dmem = (s.core K).dmem
        ∧ ∃ v : BitVec 8192, (u.core K).vstk = ⟨v, if r.poison then 15 else 0⟩ :: (s.core K).vstk ∧ ∀ l x, r.partials[l]? = some x → lane 64 v.toNat l = x.toNat

/-! ## Tiles and arrays -/

/-- Tile instructions that meet no fault and find room enter the command queues in program order, with their operands popped; TQUIESCE completes when every tile instruction has, and waits until then (R185, R186, R189, R196, R197, R224 to R226, R238 to R242). What dispatch leaves: the instruction last in each queue it enters, no other array touched, no memory, stack or register changed (R196, R197). -/
def Obligations.TileDispatch : Prop :=
  (∀ (i : Issue) (s : State) (a : BitVec 2) (tile : BitVec 4), s.issuesNow i → tile.toNat < 10 →
      let k := i.core.val
      let u := s.issued k i.core.isLt
      let t := tile.toNat
      let A := a.toNat
      let enters := fun (arrs : List Nat) (pops : Nat) (op : TileOp) => (((u.dispatch k arrs op).ipop k pops).skip k 4)
      let free := fun (arrs : List Nat) => s.dispatchWait k arrs = none
      let img := (s.itop k 0).toNat
      (s.onCore k 0 0 0 0 → (free [A] → exec (.trel i a tile) s = .next (enters [A] 0 (.trel t)))
          ∧ (free [0, 1, 2, 3] → exec (.trela i) s = .next (enters [0, 1, 2, 3] 0 .trela))
          ∧ (free [A] → 8 ≤ t → exec (.tzero i a tile) s = .next (enters [A] 0 (.tzero t)))
          ∧ (s.tilesQuiet k = true → exec (.tquiesce i) s = .next (s.after i (s.core k).istk (s.core k).vstk))
          ∧ (s.tilesQuiet k = false → exec (.tquiesce i) s = .next (s.waits k i.core.isLt (.tquiesce i) .tquiesce))
          ∧ ∀ (st dt : BitVec 3) (da : BitVec 2), ((s.tileView k A).view st.toNat).2 = true → free (if a = da then [A] else [A, da.toNat]) →
              exec (.tmove i a st da dt) s = .next (enters (if a = da then [A] else [A, da.toNat]) 0 (.tmove A st.toNat da.toNat dt.toNat)))
        ∧ (s.onCore k 1 0 0 0 → free [A] → ∀ v r, (s.core k).istk = v :: r →
            (v.toNat < 2 ^ 32 → cfgValid t (BitVec.ofNat 32 v.toNat) = true → exec (.tcfg i a tile) s = .next (enters [A] 1 (.tcfg t (BitVec.ofNat 32 v.toNat))))
              ∧ (s.imageFaults k true img t = [] → s.walkHeld k (s.access k true) img (imageBytes t) = false → exec (.tsave i a tile) s
                  = .next (((((u.probe k true img (imageBytes t)).dispatch k [A] (.tsave t ((u.probe k true img (imageBytes t)).ctxByte k) ((u.probe k true img (imageBytes t)).imageSegs k true ((u.probe k true img (imageBytes t)).itop k 0).toNat t))).ipop k 1)).skip k 4))
              ∧ (s.imageFaults k false img t = [] → s.headGoes k img t = true →
                  let b := (s.imageHead k img t).bytes
                  let v := (u.imageHead k img t).bytes
                  (headFlags b).testBit 1 = decide (8 ≤ t) → headFlags b < 4 → cfgValid t (headCfg b) = true →
                  exec (.trestore i a tile) s = .next (((((u.probe k false img (imageBytes t)).imageHead k ((u.probe k false img (imageBytes t)).itop k 0).toNat t).st.dispatch k [A]
                    (.trestore t (u.ctxByte k) (u.imageSegs k false img t) (headCfg v) ((headFlags v).testBit 0) (leNat ((v.drop 0x20).take 32)))).ipop k 1).skip k 4))))
  ∧ (∀ (s : State) (k a : Nat) (op : TileOp),
      let t := s.dispatch k [a] op
      (t.arr k a).cmds = (s.arr k a).cmds ++ [⟨op, (s.core k).tileSeq, (s.core k).pc, s.preciseArith k⟩] ∧ (t.arr k a).stores = (s.arr k a).stores ∧ (t.arr k a).cycle = (s.arr k a).cycle
        ∧ (∀ j b, (j, b) ≠ (k, a) → t.arr j b = s.arr j b) ∧ t.mem = s.mem ∧ t.frames = s.frames ∧ t.aes = s.aes ∧ (t.core k).istk = (s.core k).istk ∧ (t.core k).dmem = (s.core k).dmem
        ∧ ∀ j, j ≠ k → t.core j = s.core j)

/-- Bundles that are legal, lie on a multiple of 16 and meet no condition of R224 to R226 enter the command queue of their array, and the PC moves on by 16; an armed TSTART.AT holds a TSTREAM until its time (R236 to R243, R343). A TSTREAM that breaks R225 is not dispatched: TILE_SHAPE before TILE_EMPTY, INFO naming the array and the store of the first condition; masked, it is skipped and TCU_STAT.SKIPPED sets in that cycle of the array (R224, R225, R552). The shape an unloaded weight set is compared by (log 99) is the model's. -/
def Obligations.BundleDispatch : Prop :=
  (∀ (i : Issue) (s : State), s.issuesNow i → (s.core i.core.val).pc.toNat % 16 = 0 → s.onCore i.core.val 0 0 0 0 →
      let k := i.core.val
      let u := s.issued k i.core.isLt
      let enters := fun (x : State) (a pops : Nat) (op : TileOp) => (((x.dispatch k [a] op).ipop k pops).skip k 16)
      let fine := fun (l : List TileCond) => l.all (fun c => !c.bad) = true
      (∀ b : WeightLoad, b.legal = true → s.dispatchWait k [b.arr.toNat] = none → fine (loadConds (s.tileView k b.arr.toNat) b) → exec (.twload i b) s = .next (enters u b.arr.toNat 0 (.twload b)))
        ∧ (∀ b : Stream, b.legal = true → s.dispatchWait k [b.arr.toNat] = none → fine (streamConds (s.tileView k b.arr.toNat) b) →
            (s.armedAt k b.arr.toNat = none → exec (.tstream i b) s = .next (enters (u.modCore k (fun c => { c with armed := tdel c.armed b.arr.toNat })) b.arr.toNat 0 (.tstream b)))
              ∧ (∀ t, s.armedAt k b.arr.toNat = some t → (s.copyOf (regionOf k)).toNat < t.toNat → exec (.tstream i b) s = .next (s.waits k i.core.isLt (.tstream i b) .tstart)))
        ∧ (∀ b : Drain, b.legal = true → s.onCore k (drainPops b) 0 0 0 → s.dispatchWait k [b.arr.toNat] = none → fine (drainConds (s.tileView k b.arr.toNat) b) →
            let l := (s.core k).istk
            let bounds := (l[b2n b.smode]?.getD 0).toNat
            let rec_ := (l[drainPops b - 1]?.getD 0).toNat
            (b.sesrc = true → rec_ < 0x80000 ∧ (s.priv k = true ∨ rec_ / 128 * 128 + 128 ≤ s.reg (.cu k) 0x420)) →
            exec (.tdrain i b) s = .next (enters u b.arr.toNat (drainPops b) (.tdrain b (if b.smode then BitVec.ofNat 32 (l[0]?.getD 0).toNat else 0)
              (if b.clip then BitVec.ofNat 32 bounds else 0) (if b.clip then BitVec.ofNat 32 (bounds / 2 ^ 32) else 0) (if b.sesrc then rec_ else 0))))
        ∧ (∀ (a : BitVec 2) (dly : BitVec 10) (opd : BitVec 5) (t : BitVec 3), s.dispatchWait k [a.toNat] = none →
            (opdHead opd = true → exec (.tfill i a dly opd t) s = .next (enters u a.toNat 0 (.tfill dly.toNat opd.toNat t.toNat)))
              ∧ (opdTail opd = true → ((s.tileView k a.toNat).view t.toNat).2 = true → exec (.temit i a dly opd t) s = .next (enters u a.toNat 0 (.temit dly.toNat opd.toNat t.toNat)))))
  ∧ (∀ (i : Issue) (s : State) (b : Stream) (c : TileCond), s.issuesNow i → (s.core i.core.val).pc.toNat % 16 = 0 → s.onCore i.core.val 0 0 0 0 → b.legal = true →
      let k := i.core.val
      let a := b.arr.toNat
      let l := (streamConds (s.tileView k a) b).filter (·.bad)
      (l.find? (fun c => c.code == 10) = some c ∨ (l.find? (fun c => c.code == 10) = none ∧ l.find? (fun c => c.code == 11) = some c)) →
        (s.masked k c.code = false → exec (.tstream i b) s
            = .next ((s.cancelWait k i.core.isLt).enter k { code := c.code, precise := true, info := BitVec.ofNat 64 (a + 16 * c.store) } (s.core k).pc))
          ∧ (s.masked k c.code = true → exec (.tstream i b) s = .next (((s.issued k i.core.isLt).flagNow k a 4).skip k 16)
            ∧ (tget ((((s.issued k i.core.isLt).flagNow k a 4).flagsDue k a).frame (.tcu k a)).flags 0x10 0).getLsbD 4 = true))

/-- The arrays of a core go through the phases of a local cycle together. An event of an array that is not frozen brings them through the phases before its own and then through that one (R199, R246); one of a cycle already past changes nothing (log 8). Each phase is the parts of the arrays in ascending order, and the arithmetic flags that a cycle raised set together after its phase 6, in bit order (R55); a frozen array does nothing but end its local cycle (R61). What one array's part does: the head of the command queue issues or stays; the feeder takes a row or counts an idle cycle; a row that entered 257 cycles ago is accumulated; a drain completes and updates its record; an entry leaves the de-skew buffer when its queue's tail takes it; a ramp step ends; the cycle ends, and the flags of TCU_STAT noted in it set (R55, R102, R199, R209, R211, R213, R219 to R222). Until when a TSTREAM holds its source (log 22) and the order of two pushes of one array (log 117) are the model's. -/
def Obligations.ArrayEvents : Prop :=
  (∀ (k : Fin 128) (a : BitVec 2) (cyc n : Nat) (s : State), s.pwr.ready = true → s.siteOf k.val ≠ 0xFF → s.frozen (.tcu k.val a.toNat) = false →
    let event := fun (p : Nat) (ins : Instr) =>
      (s.tileUntil k.val a.toNat cyc p = some n → exec ins s = .next ((s.tileTicks k.val n).tileTick k.val)) ∧ (11 * cyc + p < 11 * (s.arr k.val a.toNat).cycle + (s.core k.val).tphase → exec ins s = .next s)
        ∧ (cyc = (s.arr k.val a.toNat).cycle → (s.core k.val).tphase = p → exec ins s = .next (s.tileTick k.val))
    event 3 (.arrayIssue k a cyc) ∧ event 4 (.tileRowPop k a cyc) ∧ event 6 (.accumulateRowWrite k a cyc) ∧ event 8 (.tdrainComplete k a cyc)
      ∧ event 1 (.drainEntryPush k a cyc) ∧ event 9 (.rampStepEnd k a cyc) ∧ event 10 (.arrayWindDown k a cyc))
  ∧ (∀ (K A p : Nat) (s : State),
      let u := s.modCore K (fun c => { c with tphase := if (s.core K).tphase < 10 then (s.core K).tphase + 1 else 0 })
      ((s.core K).tphase = p →
          let t := (((u.tilePart K 0 p).tilePart K 1 p).tilePart K 2 p).tilePart K 3 p
          s.tileTick K = if p = 6 then t.arithDue K else t)
        ∧ (s.frozen (.tcu K A) = false → s.tilePart K A p = s.tilePhase K A p)
        ∧ (s.frozen (.tcu K A) = true → s.tilePart K A p = if p = 10 then s.cycleOver K A else s)
        ∧ (let due := (s.core K).newArith
          (s.arithDue K) = ((List.range 13).flatMap (fun b => due.filter (fun e => e.bit == b))).foldl (fun t e => t.raiseArithFrom K e.precise e.pc (2 ^ e.bit) e.all 13) (s.modCore K (fun c => { c with newArith := [] })))
        ∧ (let t := s.cycleOver K A
          (t.arr K A).cycle = (s.arr K A).cycle + 1 ∧ (t.arr K A).popped = [] ∧ (t.arr K A).newFlags = [] ∧ (t.arr K A).stores = (s.arr K A).stores ∧ (t.arr K A).cmds = (s.arr K A).cmds ∧ t.mem = s.mem
            ∧ (∀ b, b < 6 → b ∈ (s.arr K A).newFlags → (tget (t.frame (.tcu K A)).flags 0x10 0).getLsbD b = true)
            ∧ (t.frame (.tcu K A)).accession = (s.frame (.tcu K A)).accession + BitVec.ofNat 16 (((s.arr K A).newFlags.filter (· < 6)).length)))
  ∧ ∀ (K A : Nat) (s : State),
    let x := s.arr K A
    (s.headIssues K A = none → s.tilePhase K A 3 = s)
      ∧ (∀ cmd, s.headIssues K A = some cmd → s.tilePhase K A 3 = (((s.modArr K A (fun y => { y with cmds := y.cmds.drop 1, issuedAt := y.cycle + 1 })).issueOp K A cmd).act K))
      ∧ (x.ramp = none → x.weight = none → x.port = none →
          let t := s.tilePhase K A 4
          (x.feeding = none → (t.arr K A).idle = x.idle + 1 ∧ (t.arr K A).flight = x.flight ∧ t.mem = s.mem ∧ ∀ b, b ≠ A → t.arr K b = s.arr K b)
            ∧ ∀ q r e s', x.feeding = some q → x.streams.find? (fun r => r.seq == q) = some r → x.held = false → s.streamRow K A r = some (e, s') →
                (t.arr K A).flight = x.flight ++ [{ stream := r.seq, entry := x.cycle + 1, bits := e.row, valid := e.valid, tag := e.tag, poison := e.poison, acc := r.b.acc.toNat, row := r.b.row0.toNat + r.popped, gen := x.genNow }]
                  ∧ (t.arr K A).idle = 0 ∧ ((t.arr K A).feeding = none ↔ r.popped + 1 = r.b.rows.toNat))
      ∧ (∀ r run g, x.flight = [r] → r.entry + 257 = x.cycle → x.streams.find? (fun q => q.seq == r.stream) = some run → x.gens.find? (fun g => g.id == r.gen) = some g →
          let t := s.tilePhase K A 6
          (t.arr K A).flight = [] ∧ ((t.arr K A).store (8 + r.acc)).raw r.row
              = (if r.valid then (accumulate run r g (r.latched.getD {}) ((x.store (8 + r.acc)).row r.row).poison).1 else (x.store (8 + r.acc)).raw r.row)
            ∧ t.mem = s.mem ∧ ∀ b, b ≠ A → t.arr K b = s.arr K b)
      ∧ (x.weight = none → x.port = none → ∀ d, x.drain = some d → d.finished x.cycle = true →
          s.tilePhase K A 8 = (((s.updateRecord K d).modArr K A (fun y => { y with drain := none })).act K))
      ∧ (x.port = none → ∀ d e r, x.drain = some d → x.deskew = e :: r → s.tailReady K (queueOf d.b.opd.toNat) = true →
          s.tilePhase K A 1 = (s.push K (queueOf d.b.opd.toNat) { e with pushed := some (A, x.cycle) }).modArr K A (fun y => { y with deskew := r, drain := some { d with left := d.left - 1 } }))
      ∧ (∀ p, x.ramp = some p → p.step < 7 → p.stepEnd ≤ x.cycle + 1 → ((s.tilePhase K A 9).arr K A).ramp = some ⟨p.step + 1, x.cycle + 1 + s.reg (.tcu K A) 4 / 8, p.credit⟩)
      ∧ (x.clears = [] →
          let t := s.tilePhase K A 10
          (t.arr K A).cycle = x.cycle + 1 ∧ (t.arr K A).popped = [] ∧ (t.arr K A).stores = x.stores ∧ (t.arr K A).cmds = x.cmds ∧ (t.arr K A).streams = x.streams ∧ (t.arr K A).drain = x.drain ∧ t.mem = s.mem ∧ t.cores = s.cores)

/-! ## Access engine -/

/-- The instructions of the access engine: AEPOST takes the lowest free number, waits while none is free, and refuses a malformed descriptor with DESC_INVALID, masked it pushes all ones (R257, R349, R357; that INFO is the number it would have taken is log 98); AEWAIT waits for its descriptor; PREF; AEREC and AERESTART at supervisor level (R256, R257, R269, R281, R284). What RESTART does to a stopped descriptor: GO resumes it at START, no further than the element the record names; ABORT abandons its rows from there on; either way the record is free. Written through the register as well as by AERESTART (R284, R308). -/
def Obligations.EngineInstructions : Prop :=
  (∀ (i : Issue) (s : State) (l : List W64), s.issuesNow i → (s.core i.core.val).istk = l →
      let k := i.core.val
      let u := s.issued k i.core.isLt
      let words := (l.take 8).reverse
      (s.onCore k 8 1 0 0 →
          (∀ n, s.freeDesc k = some n → (descLegal words = true → s.frozen (.ae k) = false →
                exec (.aepost i) s = .next ((((u.postDesc k i.core.isLt n words).ipop k 8).ipush k (BitVec.ofNat 64 n)).skip k 4))
              ∧ (descLegal words = false → s.masked k 12 = false →
                exec (.aepost i) s = .next ((s.cancelWait k i.core.isLt).enter k { code := 12, precise := true, info := BitVec.ofNat 64 n } (s.core k).pc))
              ∧ (descLegal words = false → s.masked k 12 = true →
                exec (.aepost i) s = .next ((((s.raise (.cu k) 0x250 7).issued k i.core.isLt).withInts k (BitVec.allOnes 64 :: l.drop 8)).skip k 4)))
            ∧ (s.freeDesc k = none → exec (.aepost i) s = .next (s.waits k i.core.isLt (.aepost i) .aepost)))
        ∧ (∀ a r, l = a :: r → s.onCore k 1 0 0 0 →
            (s.desc k (a.toNat % 16) = none → exec (.aewait i) s = .next (s.after i r (s.core k).vstk))
              ∧ (∀ d, s.desc k (a.toNat % 16) = some d → exec (.aewait i) s = .next (s.waits k i.core.isLt (.aewait i) .descriptors))
              ∧ (s.prefetchGoes k (!s.priv k) [a.toNat] = true → exec (.pref i) s = .next (((u.prefetchAt k (!s.priv k) none a.toNat).ipop k 1).skip k 4)))
        ∧ ∀ w n r, l = w :: n :: r → s.priv k = true →
            (s.onCore k 2 1 0 0 → exec (.aerec i) s = .next (s.after i (BitVec.ofNat 64 ((s.frec k (n.toNat % 16)).word (w.toNat % 4)) :: r) (s.core k).vstk))
              ∧ (s.onCore k 2 0 0 0 → exec (.aerestart i) s = .next (((u.aeRestart k (n.toNat % 16) (w.toNat % 2 ^ 32)).ipop k 2).skip k 4)))
  ∧ (∀ (k : Fin 128) (n start : BitVec 4) (ag : Agent) (s : State) (d : Desc), (s.frec k.val n.toNat).valid = true → s.desc k.val n.toNat = some d →
      s.target ag (s.restartAt k.val n.toNat) true = .frame (.ae k.val) (0x110 + 32 * n.toNat) 0 →
      (∃ t, exec (.restartGo ag k n start) s = .next t ∧ (t.frec k.val n.toNat).valid = false
          ∧ t.desc k.val n.toNat = some { d with stopped := false, elem := min start.toNat (s.frec k.val n.toNat).element.toNat } ∧ t.mem = s.mem ∧ t.cores = s.cores)
        ∧ ∃ t, exec (.restartAbort ag k n) s = .next t ∧ (t.frec k.val n.toNat).valid = false
          ∧ t.desc k.val n.toNat = some { d with stopped := false, aborted := true } ∧ (t.ae k.val).queues = (s.ae k.val).queues ∧ t.mem = s.mem ∧ t.cores = s.cores)

/-- Events of a descriptor: it starts once nothing before it in its queue is unissued; rows translate by kind: a LOAD's row asks for its bytes, a GATHER reads its next index and asks for that element, a PREFETCH starts the sectors of its row that are neither held nor on their way; whole rows are pushed in order; stores pop and write; completion frees the number, makes the ASYNC arrival and a COMPLETION record; an abandoned descriptor makes no arrival, sets its flag and says so in its record (R258, R259, R263, R264, R268, R269, R284, R294, R321). -/
def Obligations.DescriptorEvents : Prop :=
  ∀ (k : Fin 128) (n : BitVec 4) (s : State) (d : Desc), s.desc k.val n.toNat = some d → s.aeStarts k.val = true →
    let K := k.val
    let N := n.toNat
    (d.started = false → d.waiting = false → s.earlierAll K d (fun m e => s.issuedLast K m e) = true → exec (.descriptorStart k n) s = .next (s.setDesc K N { d with started := true }))
      ∧ (d.started = false → d.waiting = true → s.waitOf (.desc k n) = none → s.fenceWrites K = [] →
          (s.descAcquire K k.isLt N d).earlierAll K { d with waiting := false } (fun m e => (s.descAcquire K k.isLt N d).issuedLast K m e) = true →
          exec (.descriptorStart k n) s = .next ((s.descAcquire K k.isLt N d).setDesc K N { d with waiting := false, started := true }))
      ∧ (d.started = true → d.waiting = false → d.stopped = false → d.aborted = false → d.translated < d.rows → s.lookups K = true →
          (d.kind = 0 → ∀ q u segs, d.queue = some q → (s.queue K q).length + s.reserved K q < 64 →
              let va := d.rowVa d.translated (d.tag d.translated)
              let reqs := segs.flatMap (fun g => segRequests N d.translated (g.va - va) d.alloc [g])
              s.olderStore K d.seq va d.span = false → s.walkHeld K ⟨d.user, false⟩ va d.rowLen = false → s.xlateRow K d false va d.rowLen = (u, segs, none) → u.frameRoom K reqs.length = true →
              exec (.translationWalk k n) s = .next ((u.setDesc K N { d with translated := d.translated + 1, asm := tset d.asm d.translated ⟨List.replicate 256 0, (segs.map (·.len)).foldl (· + ·) 0, false⟩ }).toFrame K reqs)) ∧ (d.kind = 2 → ∀ v segs u p,
              let g := d.translated
              let j := 16 * g + d.elem
              let es := d.esize
              let x := v.readSegs K d.alloc segs
              let va := d.elemVa (leNat x.bytes)
              let asm := tget d.asm g ⟨List.replicate 256 0, 0, false⟩
              let last := decide (min 16 (d.nidx - 16 * g) ≤ d.elem + 1)
              (d.elem ≠ 0 ∨ ∀ q, d.queue = some q → (s.queue K q).length + s.reserved K q < 64) → s.frameRoom K 1 = true → s.xlateRange K ⟨d.user, false⟩ (d.bits_ 2 0 48 + 4 * j) 4 = (v, .inr segs) →
              v.olderStore K d.seq (d.bits_ 2 0 48 + 4 * j) 4 = false → v.readsGo K segs = true → s.olderStore K d.seq va es = false →
              s.walkHeld K ⟨d.user, false⟩ va 1 = false → va < 2 ^ 48 → va % es = 0 → (x.st.act K).xlate K ⟨d.user, false⟩ va = (u, .inr p) →
              exec (.translationWalk k n) s = .next ((u.setDesc K N { d with asm := tset d.asm g { asm with missing := asm.missing + es }, translated := if last then g + 1 else g, elem := if last then 0 else d.elem + 1 }).toFrame K
                [{ desc := some N, row := g, at_ := es * d.elem, va := va, pa := p.pa, len := es, na := p.na, alloc := d.alloc }]))
            ∧ (d.kind = 3 →
              let va := d.rowVa d.translated (d.tag d.translated)
              let l := rowSectors va d.rowLen
              s.olderStore K d.seq va d.rowLen = false → s.prefetchGoes K d.user l = true →
              exec (.translationWalk k n) s = .next (l.foldl (fun t v => t.prefetchAt K d.user (some N) v) (s.setDesc K N { d with translated := d.translated + 1 }))))
      ∧ (∀ u p va, s.xlate K ⟨d.user, false⟩ va = (u, .inr p) →
          (u.prefetchDropped K (p.pa / 128) p.na = true → s.prefetchAt K d.user (some N) va = u.act K)
            ∧ (u.prefetchDropped K (p.pa / 128) p.na = false →
              s.prefetchAt K d.user (some N) va = ((u.ownIssue K (128 * (p.pa / 128))).modCache K (fun c => { c with prefetch := c.prefetch ++ [⟨p.pa / 128, some N, false⟩] })).act K))
      ∧ (∀ q x, d.queue = some q → d.done < d.rows → d.done < d.translated → d.aborted = false → (d.asm.find? (fun e => e.1 == d.done)).map (·.2) = some x → x.missing = 0 → x.poison = false → s.room K q 1 = true →
          s.earlierAll K d (fun _ e => decide (e.rows ≤ e.done)) = true → (d.loadRow x.bytes).2 = false →
          let t := (s.push K q { row := BitVec.ofNat 2048 (d.loadRow x.bytes).1, valid := true, tag := BitVec.ofNat 10 (d.tag d.done), poison := false }).setDesc K N
            { d with done := d.done + 1, asm := tdel d.asm d.done, translated := max d.translated (d.done + 1) }
          (d.kind = 0 → exec (.loadRowPush k n) s = .next t) ∧ (d.kind = 2 → exec (.gatherRowPush k n) s = .next t))
      ∧ (d.kind = 1 → d.started = true → d.waiting = false → d.stopped = false → d.aborted = false → d.done < d.rows → d.held = none → s.earlierAll K d (fun _ e => decide (e.rows ≤ e.done)) = true →
          s.lookups K = true → s.headReady K (8 + d.queueNo) = true → ∀ e s', s.pop K (8 + d.queueNo) = some (e, s') →
          (e.valid = false → exec (.storeRow k n) s = .next ((s'.setDesc K N { d with done := d.done + 1, held := none }).act K))
            ∧ (e.valid = true → s.storeHeld K d e = false → ∀ u segs,
                s'.xlateRow K d true (d.rowVa d.done e.tag.toNat) (d.storeBytes e.row).length = (u, segs, none) →
                exec (.storeRow k n) s = .next (((u.setDesc K N { d with done := d.done + 1, held := none }).toFrame K (storeRequests N e.poison (d.rowVa d.done e.tag.toNat) (d.storeBytes e.row) segs)).act K)))
      ∧ ((if d.kind = 3 then d.rows ≤ d.translated else d.rows ≤ d.done) → ((s.ae K).frame ++ (s.ae K).again ++ (s.ae K).slots).any (fun r => r.desc == some N) = false → (s.ae K).writes.any (fun w => w.desc == some N) = false →
          (s.cache K).prefetch.any (fun f => f.desc == some N) = false → 
          let u := s.modAe K (fun a => { a with descs := tdel a.descs N })
          let ends := fun (t : State) => exec (.descriptorComplete k n) s = .next t
          (d.aborted = true → ends ((u.raise (.ae K) 0x10 3).completion (.ae K) (u.ctxByte K) 0 N 15))
            ∧ (d.aborted = false → d.async = none → ends ((u.act K).completion (.ae K) (u.ctxByte K) 0 N 2))
            ∧ (d.aborted = false → ∀ id o, d.async = some id → u.objOf (u.coreCtx K) id = some o →
              ends (((u.syncAct o 0 1 (srcCode 1 (16 * K + N)) (u.ctxByte K) id).act K).completion (.ae K) (u.ctxByte K) 0 N 2)))

/-- Requests and data: the sorting frame issues what R276 chooses, at most one request a cycle: a read takes a slot and its lookup is made, a write that misses the cache goes on its way with its slot; the data of a read enters its row; a prefetched sector lands in the tray; a write is published by its stack controller in whole and nowhere else; while a frozen controller would have to serve it, it waits (R61, R275, R276, R287, R288, R294, R299, R551). -/
def Obligations.RequestAndDataEvents : Prop :=
  ∀ (k : Fin 128) (s : State), s.aeStarts k.val = true →
    let K := k.val
    let a := s.ae K
    (∀ cyc i r, a.frame[i]? = some r → a.nextIssue ≤ cyc → s.chooseRequest K cyc = some i → s.slotsFull K = false → s.lookups K = true → a.again = [] →
        ∃ t, exec (.requestIssue k cyc) s = .next t ∧ (t.ae K).frame = listDel a.frame i ∧ (t.ae K).nextIssue = cyc + 1 ∧ t.mem = s.mem ∧ t.cores = s.cores
          ∧ (r.isWrite = false → (t.ae K).writes = a.writes
              ∧ (t.ae K).slots = a.slots ++ [{ r with on := s.cacheOn K, fill := if r.alloc && !r.na && s.cacheOn K then r.sectors.filter (fun sec => ((s.cache K).sector sec).isNone) else [], dropped := false }])
          ∧ (r.isWrite = true → (t.ae K).slots = a.slots)
          ∧ (r.evict = true → (t.ae K).writes = a.writes ++ [{ parts := r.parts, evict := true, maint := r.maint }])
          ∧ (r.isWrite = true → r.evict = false → s.cacheOn K = false → (t.ae K).writes = a.writes ++ [{ parts := r.parts, desc := r.desc }]))
      ∧ (∀ j r, a.slots[j]? = some r → s.lookups K = true → s.behind K (s.fromMemory K r.on r.sectors) = false → r.dropped = false →
          let v := s.modAe K (fun a => { a with slots := listDel a.slots j })
          let x := v.readLine K r.on (fun sec => r.fill.contains sec) r.na r.pa r.len
          exec (.readDataReturn k j) s = .next ((x.st.deliver K r x.bytes x.poison).act K))
      ∧ (∀ j f, (s.cache K).prefetch[j]? = some f → s.frozen (.mc K) = false → f.discard = true → exec (.trayFillArrival k j) s = .next ((s.modCache K (fun c => { c with prefetch := listDel c.prefetch j })).act K))
      ∧ (∀ j f, (s.cache K).prefetch[j]? = some f → s.frozen (.mc K) = false → f.discard = false → (s.cache K).tray.length < 64 → s.behind K [f.sector] = false →
          (s.region (regionOfPa (f.sector * 128))).fenced = false →
          ∃ t, exec (.trayFillArrival k j) s = .next t ∧ (t.cache K).prefetch = listDel (s.cache K).prefetch j ∧ (t.cache K).lines = (s.cache K).lines
            ∧ (t.cache K).tray = (s.cache K).tray ++ [⟨f.sector, memBytes s.mem (f.sector * 128) 128, setHas s.memPoison f.sector⟩] ∧ t.mem = s.mem)
      ∧ (∀ j w, a.writes[j]? = some w → w.parts.any (fun p => s.stackHeld p.pa) = true → exec (.writeAccepted k j) s = .next s)
      ∧ (∀ j w p, a.writes[j]? = some w → (a.writes.take j).any (fun v => shares v.sectors w.sectors) = false → w.tile = none → w.parts = [p] → (s.region (regionOfPa p.pa)).fenced = false → s.stackHeld p.pa = false →
          ∃ t, exec (.writeAccepted k j) s = .next t ∧ (t.ae K).writes = listDel a.writes j ∧ t.mem = memPut s.mem p.pa p.data
            ∧ t.memPoison = poisonAfter s.memPoison (p.pa / 128) p.data.length p.poison ∧ t.frames = s.frames ∧ t.cores = s.cores
            ∧ (∀ b, b < p.pa ∨ p.pa + p.data.length ≤ b → memGet t.mem b = memGet s.mem b))

/-! ## Fences and maintenance -/

/-- Fences complete once the accesses they order are performed, FENCE.AE and ACQUIRE emptying the tray and marking the prefetches in flight (R296, R300, R301); the full operations hold the core until they complete; translations are discarded (R274, R292, R293). Maintenance by address acts on every sector of the pages of its range that are mapped, and on no other: an invalidate drops it with its dirty data, a clean sends its dirty data back through the sorting frame and leaves it clean; its tray entry goes, a prefetch of it in flight is discarded on arrival, and of an invalidated one a fill in flight is not installed (R292, R298). It holds the core while a write-back it started has not been accepted (R293). Which pages count as mapped is the model's choice (log 142). -/
def Obligations.FencesAndMaintenance : Prop :=
  ∀ (i : Issue) (s : State), s.issuesNow i →
    let k := i.core.val
    let l := (s.core k).istk
    let v := (s.core k).vstk
    let u := s.issued k i.core.isLt
    let holds := fun (ins : Instr) (op : Nat) => (u.maintRequest k op true).modCore k (fun c => { c with waiting := some { kind := .maint op, since := s.copyOf (regionOf k), policy := 0, instr := ins } })
    (s.onCore k 0 0 0 0 →
        (s.fenceWrites k = [] → exec (.fence i) s = .next (s.after i l v) ∧ exec (.acquire i) s = .next ((u.acquire k).skip k 4)
            ∧ ((s.ae k).descs = [] → exec (.fenceAe i) s = .next ((u.acquire k).skip k 4)))
          ∧ (s.fenceWrites k ≠ [] → exec (.fence i) s = .next (s.waits k i.core.isLt (.fence i) .fence))
          ∧ ((s.ae k).descs ≠ [] → exec (.fenceAe i) s = .next (s.waits k i.core.isLt (.fenceAe i) .descriptors))
          ∧ (s.frozen (.mc k) = false → exec (.mcclnAll i) s = .next (holds (.mcclnAll i) 2) ∧ exec (.trayinv i) s = .next (holds (.trayinv i) 3)
              ∧ (s.priv k = true → exec (.mcinvAll i) s = .next (holds (.mcinvAll i) 1)))
          ∧ (s.priv k = true → exec (.xinv i) s = .next ((u.modAe k Ae.flushTlb).skip k 4)))
      ∧ (∀ a r, l = a :: r → s.onCore k 1 0 0 0 → s.priv k = true → exec (.xinvA i) s = .next (((u.modAe k (fun x => x.dropXlate a.toNat)).ipop k 1).skip k 4))
      ∧ (∀ n a r, l = n :: a :: r → s.onCore k 2 0 0 0 → s.readsGo k [] = true → s.walkHeld k (s.access k false) a.toNat (min n.toNat 65536) = false →
          let acts := fun (ins : Instr) (clean inv : Bool) =>
            let t := (u.maintRange k clean inv a.toNat (min n.toNat 65536)).ipop k 2
            exec ins s = .next (if t.backsLeft k 2 then t.modCore k (fun c => { c with waiting := some { kind := .maint 0, since := t.copyOf (regionOf k), policy := 0, instr := ins } }) else t.skip k 4)
          acts (.mcinv i) false true ∧ acts (.mccln i) true false ∧ acts (.mccli i) true true)
      ∧ (let t := s.acquire k
        (t.cache k).tray = [] ∧ (t.cache k).prefetch = (s.cache k).prefetch.map (fun f => { f with discard := true }) ∧ (t.cache k).lines = (s.cache k).lines ∧ t.mem = s.mem ∧ t.cores = s.cores
          ∧ ((s.cache k).tray ≠ [] → (t.frame (.ae k)).ctr (.ae k) 0x420 = ((s.frame (.ae k)).ctr (.ae k) 0x420 + (s.cache k).tray.length) % 2 ^ 48))
      ∧ ∀ (clean inv : Bool) (va n : Nat) (x : State) (segs : List Seg) (f : Option (Nat × Nat)), 0 < n → clean || inv → s.xlateOpen k (s.access k false) (pageCuts (n / 2 ^ 21 + 2) va n) = (x, segs, f) →
          let t := s.maintRange k clean inv va n
          let secs := segs.flatMap segSectors
          (∀ sec, (t.cache k).sector sec = if secs.contains sec then (if inv then none else ((x.cache k).sector sec).map (fun p => (p.1, { p.2 with dirty := false }))) else (x.cache k).sector sec)
            ∧ (t.cache k).tray = (x.cache k).tray.filter (fun e => !secs.contains e.sector)
            ∧ (t.cache k).prefetch = (x.cache k).prefetch.map (fun f => if secs.contains f.sector then { f with discard := true } else f)
            ∧ (t.ae k).slots = (x.ae k).slots.map (fun r => if inv ∧ r.fill.any secs.contains = true then { r with fill := r.fill.filter (fun n => !secs.contains n), dropped := true } else r)
            ∧ (∃ back : List (List WPart), ((t.ae k).frame ++ (t.ae k).again).map (·.parts) = ((x.ae k).frame ++ (x.ae k).again).map (·.parts) ++ back
              ∧ back.flatten = if clean then secs.filterMap (fun sec => ((x.cache k).sector sec).bind (fun p => if p.2.dirty then some ⟨sec * 128, p.2.data, p.2.poison⟩ else none)) else [])
            ∧ t.mem = s.mem ∧ t.cores = s.cores

/-- The register forms of maintenance, the cache's enable, the discarding of translations and the flush of queues, each through the register that carries it (R290, R305, R307, R309). What a full operation does as it starts, and that a second one waits for it: MCINV.ALL leaves no line, no tray entry and no fill or prefetch that is installed, and writes nothing back; MCCLN.ALL leaves every sector clean and sends the dirty ones back; TRAYINV empties the tray alone (R292, R293, R296, R298). An operation completes once the write-backs that it started, and no others, have been accepted; the core goes on, or MAINT_DONE sets, INV_DONE with MCINV.ALL (R293, R310). Every write of ENABLE as 1 needs INV_DONE (log 97); that an operation acts as it starts is the model's (log 31). -/
def Obligations.MaintenanceRegisters : Prop :=
  ∀ (ag : Agent) (k : Fin 128) (s : State) (v : W32),
    let K := k.val
    let mc := FrameId.mc K
    let leads := fun (f : FrameId) (off : Nat) => s.target ag (s.bar0 f + off) true = .frame f off 0
    (leads mc 4 → exec (.maintMcinvAll ag k) s = .next (s.maintRequest K 1 false) ∧ exec (.maintMcclnAll ag k) s = .next (s.maintRequest K 2 false) ∧ exec (.maintTrayinv ag k) s = .next (s.maintRequest K 3 false))
      ∧ (leads mc 0 → v.toNat % 2 = 1 → (tget (s.frame mc).flags 0x10 0).getLsbD 0 = true → ∃ t, exec (.mcacheEnableWrite ag k v) s = .next t ∧ t.cacheOn K = true ∧ t.allocDemand K = v.toNat.testBit 1 ∧ t.mem = s.mem ∧ t.cores = s.cores ∧ t.caches = s.caches)
      ∧ (leads mc 0 → v.toNat % 2 = 1 → (tget (s.frame mc).flags 0x10 0).getLsbD 0 = false → exec (.mcacheEnableWrite ag k v) s = .next (s.raise mc 0x10 1))
      ∧ (leads (.ae K) 0xC → ∃ t, exec (.aeXlateInv ag k) s = .next t ∧ (t.ae K).tlbM = [] ∧ (t.ae K).tlbG = [] ∧ (t.ae K).descs = (s.ae K).descs ∧ (t.ae K).queues = (s.ae K).queues ∧ t.mem = s.mem ∧ t.cores = s.cores)
      ∧ (leads (.ae K) 0x40 → ∃ t, exec (.aeQflush ag k v) s = .next t ∧ (∀ q, q < 16 → v.toNat.testBit q = true → t.queue K q = []) ∧ (∀ q, v.toNat.testBit q = false → t.queue K q = s.queue K q) ∧ t.mem = s.mem ∧ t.cores = s.cores)
      ∧ (∀ (op : Nat) (byInstr : Bool),
          let t := s.maintRequest K op byInstr
          let c := s.cache K
          (c.maint ≠ [] → t = s.modCache K (fun c => { c with maint := c.maint ++ [⟨op, byInstr, false⟩] }))
            ∧ (c.maint = [] → (t.cache K).maint = [⟨op, byInstr, true⟩] ∧ t.mem = s.mem ∧ t.cores = s.cores
              ∧ (op = 1 → (t.cache K).lines = [] ∧ (t.cache K).tray = [] ∧ (t.cache K).prefetch = c.prefetch.map (fun f => { f with discard := true })
                ∧ (t.ae K).slots = (s.ae K).slots.map (fun r => if r.fill = [] then r else { r with fill := [], dropped := true })
                ∧ (t.ae K).frame = (s.ae K).frame ∧ (t.ae K).again = (s.ae K).again ∧ (t.ae K).writes = (s.ae K).writes)
              ∧ (op = 2 → (∀ sec, (t.cache K).sector sec = (c.sector sec).map (fun p => (p.1, { p.2 with dirty := false })))
                ∧ (t.cache K).tray = c.tray.filter (fun e => !c.held.contains e.sector) ∧ (t.ae K).slots = (s.ae K).slots
                ∧ ∃ back : List (List WPart), ((t.ae K).frame ++ (t.ae K).again).map (·.parts) = ((s.ae K).frame ++ (s.ae K).again).map (·.parts) ++ back
                  ∧ back.flatten = c.lines.flatMap (fun e => dirtyParts e.1.1 e.2))
              ∧ (op = 3 → (t.cache K).lines = c.lines ∧ (t.cache K).tray = [] ∧ (t.cache K).prefetch = c.prefetch ∧ t.aes = s.aes)))
      ∧ (∀ m r, (s.cache K).maint = m :: r → m.running = true → s.frozen mc = false → s.pwr.ready = true → s.byAddressDone K = false → (m.op = 2 → s.backsLeft K 1 = false) → r = [] →
          ∃ t, exec (.maintenanceComplete k) s = .next t ∧ (t.cache K).maint = [] ∧ (m.byInstr = true → (t.core K).waiting = none ∧ (t.core K).pc = (s.core K).pc + 4)
            ∧ (m.byInstr = false → (tget (t.frame mc).flags 0x10 0).getLsbD 3 = true ∧ t.cores = s.cores) ∧ (m.op = 1 → (tget (t.frame mc).flags 0x10 0).getLsbD 0 = true) ∧ t.mem = s.mem)
      ∧ (∀ w, (s.core K).waiting = some w → w.kind = .maint 0 → s.backsLeft K 2 = false → s.frozen mc = false → s.pwr.ready = true →
          exec (.maintenanceComplete k) s = .next ((s.modCore K (fun c => { c with waiting := none })).skip K 4))

/-! ## Sync objects, timers, waits -/

/-- The sync instructions: ARRIVE, DEPART, SRESET and SIGNAL.AT enter the core's port as releases with their operands, WAIT completes on a satisfied object and otherwise leaves its entry there, SREAD pushes COUNTER, both only behind the core's own earlier operations to the object; an unbound identifier raises SYNC_UNBOUND (R313, R316 to R320). That WAIT and SREAD stay behind the core's own operations (log 100), that WAIT follows the core's earlier accesses (log 49) and what INFO holds (log 98) are the model's. -/
def Obligations.SyncInstructions : Prop :=
  ∀ (i : Issue) (s : State) (l : List W64), s.issuesNow i → (s.core i.core.val).istk = l → (s.port i.core.val).length < 16 →
    let k := i.core.val
    let u := s.issued k i.core.isLt
    let named := fun (id : W64) => s.objOf (s.coreCtx k) id.toNat
    let limit := fun (n : W64) => min n.toNat (2 ^ 31 - 1)
    let enters := fun (kind pops : Nat) (id : W64) (o n : Nat) (t : W64) =>
      (((u.setPort k (s.port k ++ [{ kind := kind, ident := id.toNat, obj := o, n := n, t := t, pc := (s.core k).pc, before := s.fenceWrites k }])).ipop k pops).skip k 4)
    (∀ n id r o, l = n :: id :: r → s.onCore k 2 0 0 0 → named id = some o →
        exec (.arrive i) s = .next (enters 0 2 id o (limit n) 0) ∧ exec (.depart i) s = .next (enters 1 2 id o (limit n) 0) ∧ exec (.sreset i) s = .next (enters 2 2 id o (limit n) 0))
      ∧ (∀ t n id r o, l = t :: n :: id :: r → s.onCore k 3 0 0 0 → named id = some o → exec (.signalAt i) s = .next (enters 3 3 id o (limit n) t))
      ∧ (∀ id r, l = id :: r → s.onCore k 1 0 0 0 → s.onCore k 1 1 0 0 →
          (∀ o, named id = some o → s.portHolds k o = true → ∃ x y, exec (.sread i) s = .next x ∧ exec (.wait i) s = .next y
              ∧ (x.core k).pc = (s.core k).pc ∧ (x.core k).istk = l ∧ (y.core k).pc = (s.core k).pc ∧ (y.core k).istk = l ∧ (s.waitOf (.core i.core) = none → y.waitOf (.core i.core) = none))
            ∧ (∀ o, named id = some o → s.portHolds k o = false → exec (.sread i) s = .next (s.after i (BitVec.ofNat 64 (s.obj o).counter :: r) (s.core k).vstk)
              ∧ (s.fenceWrites k = [] → s.waitOf (.core i.core) = none →
                  ((s.obj o).target ≤ (s.obj o).counter → exec (.wait i) s = .next (((u.acquire k).ipop k 1).skip k 4))
                    ∧ ((s.obj o).counter < (s.obj o).target → ∃ t, exec (.wait i) s = .next t ∧ t.waitOf (.core i.core) = some { who := .core i.core, obj := o, woken := false } ∧ (t.core k).pc = (s.core k).pc ∧ (t.core k).istk = l ∧ t.mem = s.mem)))
            ∧ (named id = none → s.masked k 14 = false → exec (.wait i) s = .next ((s.cancelWait k i.core.isLt).enter k { code := 14, precise := true, info := id } (s.core k).pc)))

/-- The postmark instructions: SWAIT.T completes once the region's copy is at t, counting a late launch only when t had passed as it came to issue and it had not waited for t, and waits before; TSTART.AT arms its array in place of an earlier time; the launch dispatches the TSTREAM that waited once its time has come, disarms the array and counts no late launch, and leaves a core that holds no such TSTREAM as it is; a TSTREAM that comes to dispatch after its armed time counts one (R342 to R344). That a launch without such a TSTREAM changes nothing is the model's choice (log 3). -/
def Obligations.PostmarkInstructions : Prop :=
  (∀ (i : Issue) (s : State) (t : W64) (r : List W64), s.issuesNow i → (s.core i.core.val).istk = t :: r → s.onCore i.core.val 1 0 0 0 →
    let k := i.core.val
    let c := (s.copyOf (regionOf k)).toNat
    (t.toNat ≤ c → (t.toNat < c → ∀ w, (s.core k).waiting = some w → w.kind = .swaitT t) → ((s.core k).waiting = none → t.toNat = c) → exec (.swaitT i) s = .next (s.after i r (s.core k).vstk))
      ∧ (t.toNat < c → (∀ w, (s.core k).waiting = some w → w.kind ≠ .swaitT t) → exec (.swaitT i) s = .next ((s.after i r (s.core k).vstk).bump (.cu k) 0x490 1))
      ∧ (c < t.toNat → exec (.swaitT i) s = .next (s.waits k i.core.isLt (.swaitT i) (.swaitT t)))
      ∧ ∀ a : BitVec 2, exec (.tstartAt i a) s = .next ((s.after i r (s.core k).vstk).modCore k (fun c => { c with armed := tset c.armed a.toNat t })))
  ∧ (∀ (k : Fin 128) (a : BitVec 2) (now : W64) (s : State), (∀ w, ((s.advance now).core k.val).waiting = some w → w.kind ≠ .tstart) → exec (.tstartLaunch k a now) s = .next (s.advance now))
  ∧ (∀ (i : Issue) (b : Stream) (s : State) (t : W64), s.issuesNow i → (s.core i.core.val).pc.toNat % 16 = 0 → s.onCore i.core.val 0 0 0 0 → b.legal = true →
    let k := i.core.val
    (streamConds (s.tileView k b.arr.toNat) b).all (fun c => !c.bad) = true → s.dispatchWait k [b.arr.toNat] = none → s.armedAt k b.arr.toNat = some t →
    t.toNat < (s.copyOf (regionOf k)).toNat → (∀ w, (s.core k).waiting = some w → w.kind ≠ .tstart) →
    exec (.tstream i b) s = .next ((((((s.issued k i.core.isLt).bump (.cu k) 0x490 1).modCore k (fun c => { c with armed := tdel c.armed b.arr.toNat })).dispatch k [b.arr.toNat] (.tstream b)).ipop k 0).skip k 16))
  ∧ ∀ (k : Fin 128) (now : W64) (s : State) (i : Issue) (b : Stream) (w : Waiting) (t : W64),
    let u := s.advance now
    i.core = k → (u.core k.val).waiting = some w → w.kind = .tstart → w.instr = .tstream i b → u.issuesNow i → u.onCore k.val 0 0 0 0 → (u.core k.val).pc.toNat % 16 = 0 → b.legal = true →
    (streamConds (u.tileView k.val b.arr.toNat) b).all (fun c => !c.bad) = true → u.dispatchWait k.val [b.arr.toNat] = none → u.armedAt k.val b.arr.toNat = some t →
    t.toNat ≤ (u.copyOf (regionOf k.val)).toNat →
    exec (.tstartLaunch k b.arr now) s
      = .next (((((u.issued k.val k.isLt).modCore k.val (fun c => { c with armed := tdel c.armed b.arr.toNat })).dispatch k.val [b.arr.toNat] (.tstream b)).ipop k.val 0).skip k.val 16)

/-- An operation performed at its object: ARRIVE and DEPART saturate and set their flag, SRESET sets the target and cancels the object's timers; when the object then satisfies WAIT every entry present there is woken, and no other object or entry changes (R313, R315, R322, R323). What happens by itself: the oldest released operation of a port is performed at its object (R318); a SIGNAL.AT takes a timer there, arrives at once and counts a late launch when its time has passed, and without a free timer raises SYNC_TIMER_FULL, or masked arrives at once, counted, with the flag (R326, R327); a due timer arrives; a waiter under LEND goes to low power after its LEND_AFTER, in SWAIT.T only while more than 1.5 us remain, and is back then (R328 to R330). -/
def Obligations.SyncUnitResults : Prop :=
  (∀ (s : State) (o n ctx ident : Nat) (src : W32),
    let x := s.obj o
    let up := s.syncAct o 0 n src ctx ident
    let down := s.syncAct o 1 n src ctx ident
    let reset := s.syncAct o 2 n src ctx ident
    (up.obj o).counter = min (x.counter + n) (2 ^ 31 - 1)
    ∧ (up.obj o).satHi = (x.satHi || decide (2 ^ 31 - 1 < x.counter + n)) ∧ (up.obj o).target = x.target
    ∧ (down.obj o).counter = x.counter - n ∧ (down.obj o).satLo = (x.satLo || decide (x.counter < n))
    ∧ (reset.obj o).counter = 0 ∧ (reset.obj o).target = n ∧ (reset.obj o).satHi = false ∧ (reset.obj o).satLo = false
    ∧ (∀ t, t ∈ tget reset.sync.timers (objRegion o) [] → t.obj ≠ o)
    ∧ ∀ t, t = up ∨ t = down ∨ t = reset → (∀ p, p ≠ o → t.obj p = s.obj p) ∧ t.mem = s.mem ∧ t.cores = s.cores
        ∧ t.sync.waits = if (t.obj o).target ≤ (t.obj o).counter then s.sync.waits.map (fun w => if w.obj = o then { w with woken := true } else w) else s.sync.waits)
  ∧ (∀ (k : Fin 128) (s : State) (op : SyncOp) (rest : List SyncOp), s.pwr.ready = true → s.frozen (.cu k.val) = false → s.nextOp k.val [] (s.port k.val) = some (op, rest) →
    let u := (s.setPort k.val rest).act k.val
    let d := objRegion op.obj
    let ts := tget s.sync.timers d []
    let goes := fun (t : State) => exec (.syncOpPerform k) s = .next t
    let arrives := (u.syncAct op.obj 0 op.n (srcCode 5 d) (u.ctxByte k) op.ident).bump (.cu k) 0x490 1
    (op.kind ≠ 3 → goes (u.syncAct op.obj op.kind op.n (srcCode 0 k.val) (u.ctxByte k) op.ident))
      ∧ (op.kind = 3 → op.t.toNat < (s.copyOf d).toNat → goes arrives)
      ∧ (op.kind = 3 → (s.copyOf d).toNat ≤ op.t.toNat → ts.length < 256 →
          goes { u with sync := { u.sync with timers := tset u.sync.timers d (ts ++ [⟨op.obj, op.ident, op.n, op.t, k, u.ctxByte k⟩]) } })
      ∧ (op.kind = 3 → (s.copyOf d).toNat ≤ op.t.toNat → 256 ≤ ts.length →
          (s.masked k 13 = false → goes (u.pendCause k { code := 13, addr := op.pc, info := BitVec.ofNat 64 op.ident })) ∧ (s.masked k 13 = true → goes (arrives.raise (.sync d) 0 4))))
  ∧ (∀ (d : Fin 8) (j : Nat) (now : W64) (s : State) (t : SyncTimer),
    let u := s.advance now
    let ts := tget u.sync.timers d.val []
    ts[j]? = some t → (ts.take j).all (fun x => decide (t.due.toNat < x.due.toNat)) = true → t.due.toNat ≤ (u.copyOf d.val).toNat → u.frozen (.sync d.val) = false → u.pwr.ready = true →
    exec (.syncTimerFire d j now) s
      = .next (({ u with sync := { u.sync with timers := tset u.sync.timers d.val (listDel ts j) } } : State).syncAct t.obj 0 t.n (srcCode 5 d.val) t.ctx t.ident))
  ∧ ∀ (k : Fin 128) (now : W64) (s : State) (w : Waiting),
    let u := s.advance now
    let c := (u.copyOf (regionOf k.val)).toNat
    let lends := w.policy.getLsbD 0 = true ∧ w.lowPower = false ∧ w.since.toNat + max 1 (w.policy.toNat / 256 % 4096) * 100 ≤ c
    let goes := fun (t : State) => exec (.lendLowPowerEntry k now) s = .next t
    (u.core k.val).waiting = some w →
    ((∃ o, w.kind = .sync o) → lends → goes (u.modCore k.val (fun x => { x with waiting := some { w with lowPower := true } })))
      ∧ (∀ t : W64, w.kind = .swaitT t → lends →
          (c + 1500 < t.toNat → goes (u.modCore k.val (fun x => { x with waiting := some { w with lowPower := true } }))) ∧ (t.toNat ≤ c + 1500 → goes u))
      ∧ (¬lends → goes u)
      ∧ (∀ t : W64, w.kind = .swaitT t → w.lowPower = true →
        (t.toNat ≤ c + 1500 → exec (.swaitLendExit k now) s = .next (u.modCore k.val (fun x => { x with waiting := some { w with lowPower := false } })))
          ∧ (c + 1500 < t.toNat → exec (.swaitLendExit k now) s = .next u))

/-- The deadlock detector. A region's span for a context with cores there: all of them wait, in one of the ways that count and not inside a loan, since the span began, and nothing of the context moved in the region since then (R332, R333). A region's report, which a freeze of the region does not stop (log 134), shows the spans of the contexts with cores there. Detection: no timer is held for an object of the context, and every region that holds a core of it has reported, a window after the latest of the spans began, the span still running; the lead region, the lowest of them, then freezes the context, raises DEADLOCK and begins the dump, or says that there is no area; the dump's end sets its flag (R332 to R337). -/
def Obligations.DeadlockDetector : Prop :=
  (∀ (d : Fin 8) (now : W64) (s : State),
    let u := s.advance now
    u.pwr.ready = true → ∃ t, exec (.detectorReport d now) s = .next t
      ∧ (∀ c, c < 64 → u.coresOf d.val c ≠ [] → tget t.sync.reports (d.val, c) (0, none) = (u.copyOf d.val, u.spanStart d.val c))
      ∧ (∀ e c, e ≠ d.val → tget t.sync.reports (e, c) (0, none) = tget u.sync.reports (e, c) (0, none)) ∧ t.cores = u.cores ∧ t.mem = u.mem ∧ t.frames = u.frames)
  ∧ (∀ (s : State) (d c : Nat), s.sync.frozen.contains c = false →
    let ks := s.coresOf d c
    let moved := tget s.active (d, c) 0
    let blocked := fun (k : Nat) (w : Waiting) => (s.core k).loan = none ∧ (s.core k).waiting = some w
      ∧ ((∃ o, w.kind = .sync o) ∨ w.kind = .vqpop ∨ w.kind = .vqpush ∨ w.kind = .descriptors ∨ w.kind = .tquiesce ∨ w.kind = .commandQueue ∨ w.kind = .aepost)
    (∀ k, k ∈ ks ↔ 16 * d ≤ k ∧ k < 16 * d + 16 ∧ s.coreCtx k = some c)
      ∧ (∀ t, s.spanStart d c = some t → ks ≠ [] ∧ moved.toNat ≤ t.toNat ∧ ∀ k, k ∈ ks → ∃ w, blocked k w ∧ w.since.toNat ≤ t.toNat)
      ∧ (ks ≠ [] → (∀ k, k ∈ ks → ∃ w, blocked k w) → ∃ t, s.spanStart d c = some t ∧ (t = moved ∨ ∃ k w, k ∈ ks ∧ blocked k w ∧ t = w.since)))
  ∧ (∀ (s : State) (c : Nat),
    let holds := fun (d : Nat) => d < 8 ∧ s.coresOf d c ≠ []
    let report := fun (d : Nat) => tget s.sync.reports (d, c) (0, none)
    let window := s.reg (.sync (s.lead c)) 4 % 2 ^ 24 * 1000
    (∀ d, holds d → holds (s.lead c) ∧ s.lead c ≤ d)
      ∧ (s.deadlocked c = true ↔ window ≠ 0 ∧ s.sync.frozen.contains c = false ∧ (∀ e, e ∈ s.sync.timers → ∀ t, t ∈ e.2 → ∀ r, r < 64 → s.syncRange c r ≠ some (t.obj / 64))
        ∧ ∃ start : W64, (∃ d, holds d ∧ (report d).2 = some start) ∧ ∀ d, holds d → ∃ t, (report d).2 = some t ∧ t.toNat ≤ start.toNat ∧ start.toNat + window ≤ (report d).1.toNat))
  ∧ (∀ (c : Fin 64) (now : W64) (s : State),
    let u := s.advance now
    let d := u.lead c.val
    let acts := fun (dumps : List Dump) (noArea : Byte) => exec (.deadlock c now) s
      = .next (({ u with sync := { u.sync with frozen := u.sync.frozen ++ [c.val], dumps := dumps } } : State).flagEvent (.sync d) 0 2 0x104 c.val [BitVec.ofNat 8 c.val, noArea])
    u.pwr.ready = true →
      (u.deadlocked c.val = true → (∀ a, u.pmArea c.val = some a → acts (u.sync.dumps ++ [(⟨c.val, a, u.dumpHeader c.val 0⟩ : Dump)]) 0) ∧ (u.pmArea c.val = none → acts u.sync.dumps 1))
        ∧ (u.deadlocked c.val = false → exec (.deadlock c now) s = .next u))
  ∧ ∀ (c : Fin 64) (s : State) (x : Dump), s.sync.dumps.find? (fun y => y.ctx == c.val) = some x →
    let ends := fun (s : State) =>
      let u := s.writeDump c.val x.addr x.header
      let v : State := { u with sync := { u.sync with dumps := u.sync.dumps.filter (fun y => y.ctx != c.val) } }
      v.flagEvent (.sync (v.lead c.val)) 0 3 0x205 c.val []
    (s.serves ends → exec (.syncDumpDone c) s = .next (ends s)) ∧ (¬s.serves ends → exec (.syncDumpDone c) s = .next s)

/-! ## Registers as commands -/

/-- Writes of an ordinary register through its four views: the plain view stores every writable bit, the alias views set, clear and invert the RW bits that are 1 in the value; nothing else in the machine changes; an access of another size than four bytes, through any view, ends in a bus error (R46, R48, R49). -/
def Obligations.RegisterViews : Prop :=
  ∀ (ag : Agent) (off : BitVec 28) (v : W32) (s : State) (f : FrameId) (o m r : Nat),
    regInfo f o = some ⟨.plain, m, r⟩ → m ≠ 0 → m < 2 ^ 32 → f.privileged = false → (∀ x y b, s.writeActs f o x y b = none) →
    (∀ w, w < 4 → s.target ag (atView off.toNat w) true = .frame f o w) →
    let old := s.reg f o
    let stores := fun (c : Instr) (x : Nat) => ∃ t, exec c s = .next t ∧ t.reg f o = limited f o x ∧ (∀ g p, (g, p) ≠ (f, o) → t.reg g p = s.reg g p)
      ∧ (∀ g, (t.frame g).flags = (s.frame g).flags ∧ (t.frame g).accession = (s.frame g).accession) ∧ setHas (t.frame f).badParity o = false
      ∧ t.mem = s.mem ∧ t.cores = s.cores ∧ t.arrays = s.arrays ∧ t.aes = s.aes ∧ t.caches = s.caches ∧ t.sync = s.sync ∧ t.links = s.links ∧ t.host = s.host ∧ t.cat = s.cat ∧ t.ev = s.ev ∧ t.out = s.out
    (∀ n, n ≠ 4 → exec (.plainRegisterWrite ag ⟨off, n⟩ v) s = .next (s.writeError ag (atView off.toNat 0)) ∧ exec (.setAliasWrite ag ⟨off, n⟩ v) s = .next (s.writeError ag (atView off.toNat 1))
        ∧ exec (.clearAliasWrite ag ⟨off, n⟩ v) s = .next (s.writeError ag (atView off.toNat 2)) ∧ exec (.toggleAliasWrite ag ⟨off, n⟩ v) s = .next (s.writeError ag (atView off.toNat 3)))
      ∧ stores (.plainRegisterWrite ag ⟨off, 4⟩ v) ((old &&& (0xFFFFFFFF ^^^ m)) ||| (v.toNat &&& m)) ∧ stores (.setAliasWrite ag ⟨off, 4⟩ v) (old ||| (v.toNat &&& m))
      ∧ stores (.clearAliasWrite ag ⟨off, 4⟩ v) (old &&& (0xFFFFFFFF ^^^ (v.toNat &&& m))) ∧ stores (.toggleAliasWrite ag ⟨off, 4⟩ v) (old ^^^ (v.toNat &&& m))

/-- A write to a status register clears exactly the flags that are 1 in the value, set, and no newer than the accession written; it changes no other flag and no accession counter (R56). -/
def Obligations.StatusWriteClearsByAccession : Prop :=
  ∀ (ag : Agent) (off : BitVec 28) (v : W32) (s : State) (f : FrameId) (o m r : Nat), regInfo f o = some ⟨.status, m, r⟩ → f ≠ .srm → f ≠ .srmCal → (∀ d, f ≠ .ptb d) →
    s.target ag (atView off.toNat 0) true = .frame f o 0 → ∃ t, exec (.statusRegisterWrite ag off v) s = .next t
      ∧ (∀ b, b < 16 → (tget (t.frame f).flags o 0).getLsbD b
          = ((tget (s.frame f).flags o 0).getLsbD b && !(v.getLsbD b && decide (((v.toNat / 65536 : Int) - (tget (s.frame f).stamps (o, b) 0).toNat) % 65536 < 32768))))
      ∧ (∀ p, p ≠ o → tget (t.frame f).flags p 0 = tget (s.frame f).flags p 0) ∧ (t.frame f).accession = (s.frame f).accession ∧ (t.frame f).stamps = (s.frame f).stamps
      ∧ (t.frame f).regs = (s.frame f).regs ∧ (∀ g, g ≠ f → t.frame g = s.frame g) ∧ t.mem = s.mem ∧ t.cores = s.cores ∧ t.ev = s.ev

/-- An event that sets a flag takes the next accession for it, set before or not, and no set flag's stamp ever falls more than 32,767 behind the counter, so that a write of what was read still clears it (R55, R57). -/
def Obligations.FlagsTakeAccessions : Prop :=
  ∀ (s : State) (f : FrameId) (o b : Nat), b < 16 →
    let t := s.raise f o b
    let lags := fun (s : State) => ∀ p c, (tget (s.frame f).flags p 0).getLsbD c = true → (s.frame f).stamps.any (fun e => e.1 == (p, c)) = true ∧ ((s.frame f).accession - tget (s.frame f).stamps (p, c) 0).toNat ≤ 32767
    (t.frame f).accession = (s.frame f).accession + 1 ∧ (tget (t.frame f).flags o 0).getLsbD b = true ∧ tget (t.frame f).stamps (o, b) 0 = (t.frame f).accession
      ∧ (∀ p c, (p, c) ≠ (o, b) → (tget (t.frame f).flags p 0).getLsbD c = (tget (s.frame f).flags p 0).getLsbD c)
      ∧ (lags s → lags t) ∧ (∀ g, g ≠ f → t.frame g = s.frame g) ∧ t.mem = s.mem ∧ t.cores = s.cores

/-- Reads and the registers that are not just stored: the low word of a captured quantity captures the high word for its agent; a counter's low word written clears its high part; a mismatch of parity turns a read into a bus error and is reported once; an access to a powered-down domain ends in a bus error, each agent learning of it in its own way: Moant by a message of its own (log 118), a core at a boundary by a cause, behind what the boundary takes first, and elsewhere not at all (log 3) (R50, R59, R60, R71, R72, R235, R349, R351). -/
def Obligations.ReadsAndCounters : Prop :=
  (∀ (ag : Agent) (off : BitVec 28) (s : State) (f : FrameId) (o view : Nat), s.target ag off.toNat false = .frame f o view → setHas (s.frame f).badParity o = false →
    (capturesLow f o = true → ∃ t, exec (.capturingLowRead ag ⟨off, 4⟩) s = .next t ∧ t.out = s.out ++ [.registerRead ag (BitVec.ofNat 32 (s.regNow f o))]
        ∧ tget (t.frame f).captures (ag, o + 4) 0 = BitVec.ofNat 32 (s.regNow f (o + 4)) ∧ (∀ x, x ≠ (ag, o + 4) → tget (t.frame f).captures x 0 = tget (s.frame f).captures x 0)
        ∧ (t.frame f).regs = (s.frame f).regs ∧ (t.frame f).flags = (s.frame f).flags ∧ t.mem = s.mem ∧ t.cores = s.cores)
      ∧ (∀ m r, 4 ≤ o → capturesLow f (o - 4) = true → capturesLow f o = false → regInfo f o = some ⟨.ctrHi, m, r⟩ →
          exec (.parityMismatchRead ag off) s = .next { s with out := s.out ++ [.registerRead ag (tget (s.frame f).captures (ag, o) 0)] }))
  ∧ (∀ (ag : Agent) (off : BitVec 28) (v : W32) (s : State) (f : FrameId) (o : Nat), s.target ag (atView off.toNat 0) true = .frame f o 0 → f.privileged = false → (∀ x y b, s.writeActs f o x y b = none) →
    (regInfo f o = some ⟨.ctrLo, 0xFFFFFFFF, 0⟩ → ∃ t, exec (.counterWrite ag off v) s = .next t ∧ (t.frame f).ctr f o = v.toNat ∧ (∀ p, p ≠ o → p ≠ o + 4 → t.reg f p = s.reg f p) ∧ t.mem = s.mem ∧ t.cores = s.cores)
      ∧ (regInfo f o = some ⟨.ctrHi, 0xFFFF, 0⟩ → ∃ t, exec (.counterWrite ag off v) s = .next t ∧ t.reg f o % 2 ^ 16 = v.toNat % 2 ^ 16 ∧ (∀ p, p ≠ o → t.reg f p = s.reg f p) ∧ t.mem = s.mem))
  ∧ (∀ (ag : Agent) (off : BitVec 28) (s : State) (f : FrameId) (o view : Nat), setHas (s.frame f).badParity o = true → setHas (s.frame f).reported o = true →
    (s.target ag off.toNat false = .frame f o view → regInfo f o ≠ none → exec (.parityMismatchRead ag off) s = .next (s.readError ag off.toNat))
      ∧ (s.target .mgmt (atView off.toNat 0) false = .frame f o view → exec (.parityScrub off) s = .next s))
  ∧ (∀ (off : BitVec 28) (s : State) (k : Fin 128) (o : Nat), setHas (s.frame (.cu k.val)).badParity o = true → setHas (s.frame (.cu k.val)).reported o = false →
    s.target .mgmt (atView off.toNat 0) false = .frame (.cu k.val) o 0 → ∃ t, exec (.parityScrub off) s = .next t
      ∧ t.frozen (.cu k.val) = true ∧ setHas (t.frame (.cu k.val)).reported o = true ∧ (tget (t.frame (.evt (regionOf k.val))).flags 0 0).getLsbD 0 = true
      ∧ ((tget (s.frame (.evt (regionOf k.val))).flags 0 0).getLsbD 0 = false → t.reg (.evt (regionOf k.val)) 4 = (s.bar0 (.cu k.val) + o) % 2 ^ 32)
      ∧ ((tget (s.frame (.evt (regionOf k.val))).flags 0 0).getLsbD 0 = true → t.reg (.evt (regionOf k.val)) 8 = (s.reg (.evt (regionOf k.val)) 8 + 1) % 2 ^ 32) ∧ t.mem = s.mem ∧ t.cores = s.cores)
  ∧ ∀ (off : BitVec 28) (s : State) (v : W32) (fn : Fin 64),
    (s.target .mgmt off.toNat true = .poweredDown → s.target .mgmt off.toNat false = .poweredDown →
        exec (.poweredDownTimeout .mgmt off (some v)) s = .next { s with out := s.out ++ [.busError .mgmt] } ∧ exec (.poweredDownTimeout .mgmt off none) s = .next { s with out := s.out ++ [.busError .mgmt] })
      ∧ (∀ k : Fin 128, s.target (.core k) off.toNat true = .poweredDown → s.target (.core k) off.toNat false = .poweredDown →
        let t := if s.atBoundary k.val then (match s.boundaryCause k.val with
          | some c => ((s.cancelWait k.val k.isLt).unpend k.val c.code).enter k.val c (s.core k.val).pc
          | none => if s.masked k.val 7 then s.noteMasked k.val 7
            else (s.cancelWait k.val k.isLt).enter k.val { code := 7, precise := true, addr := BitVec.ofNat 64 off.toNat } (s.core k.val).pc) else s
        exec (.poweredDownTimeout (.core k) off (some v)) s = .next t
          ∧ (s.masked k.val 7 = false → exec (.poweredDownTimeout (.core k) off none) s = .next t))
      ∧ (s.target (.host fn) off.toNat false = .poweredDown → ∃ t, exec (.poweredDownTimeout (.host fn) off none) s = .next t
          ∧ t.out = s.out ++ [.abort fn.val] ∧ .completerAbort ∈ (tget t.host.fns fn.val {}).aer ∧ t.frames = s.frames ∧ t.mem = s.mem ∧ t.cores = s.cores)
      ∧ (s.target (.host fn) off.toNat true = .poweredDown → ∃ t, exec (.poweredDownTimeout (.host fn) off (some v)) s = .next t
          ∧ (tget (t.frame (.func fn.val)).flags 0x10 0).getLsbD 0 = true ∧ ((tget (s.frame (.func fn.val)).flags 0x10 0).getLsbD 0 = false → t.reg (.func fn.val) 0x14 = off.toNat)
          ∧ ((tget (s.frame (.func fn.val)).flags 0x10 0).getLsbD 0 = true → t.reg (.func fn.val) 0x14 = s.reg (.func fn.val) 0x14) ∧ t.mem = s.mem ∧ t.cores = s.cores)

/-- Writes that set a unit going: the doorbell sets its flags, a fold seed reloads the 256 generators, a new ramp length raises RAMP_REWRITE only while a ramp runs, at the end of that cycle, PTB_FLIP inverts the hidden parity bit and nothing it guards, its own too, a strongroom write of any agent and size is refused and counted, and rings enable up to their limits, an event ring with PRODUCER and LOST at 0 (log 33) (R49, R55, R109, R223, R233, R389, R494, R529, R535). -/
def Obligations.UnitRegisterWrites : Prop :=
  ∀ (ag : Agent) (s : State) (v : W32),
    (∀ k : Fin 128, s.target ag (s.cuAddress ag k.val 0x538) true = .frame (.cu k.val) 0x538 0 →
        ∃ t, exec (.coreDoorbell ag k v) s = .next t ∧ tget (t.frame (.cu k.val)).flags 0x254 0 = tget (s.frame (.cu k.val)).flags 0x254 0 ||| v.setWidth 16
          ∧ (v.setWidth 16 ≠ (0 : BitVec 16) → (t.pendingMask k.val).testBit 33 = true) ∧ (∀ o, o ≠ 0x254 → tget (t.frame (.cu k.val)).flags o 0 = tget (s.frame (.cu k.val)).flags o 0)
          ∧ (∀ o, t.reg (.cu k.val) o = s.reg (.cu k.val) o) ∧ t.mem = s.mem ∧ t.cores = s.cores)
      ∧ (∀ k : Fin 128, s.target ag (s.cuAddress ag k.val 0x210) true = .frame (.cu k.val) 0x210 0 →
        ∃ t, exec (.foldSeedWrite ag k v) s = .next t ∧ t.reg (.cu k.val) 0x210 = v.toNat
          ∧ (∀ l, l < 256 → let x := v ^^^ BitVec.ofNat 32 ((l + 1) * 0x9E3779B9); (t.core k.val).gens[l]? = some (if x = 0 then 1 else x))
          ∧ (t.core k.val).dmem = (s.core k.val).dmem ∧ (t.core k.val).istk = (s.core k.val).istk ∧ (∀ j, j ≠ k.val → t.core j = s.core j) ∧ t.mem = s.mem)
      ∧ (∀ (k : Fin 128) (a : BitVec 2), s.target ag (s.bar0 (.tcu k.val a.toNat) + 4) true = .frame (.tcu k.val a.toNat) 4 0 →
        ∃ t, exec (.arrayRampWrite ag k a v) s = .next t ∧ t.reg (.tcu k.val a.toNat) 4 % 8 = 0 ∧ 16 ≤ t.reg (.tcu k.val a.toNat) 4 ∧ t.reg (.tcu k.val a.toNat) 4 ≤ 96
          ∧ (t.frame (.tcu k.val a.toNat)).flags = (s.frame (.tcu k.val a.toNat)).flags ∧ ((s.arr k.val a.toNat).ramp = none → t.arrays = s.arrays)
          ∧ ((s.arr k.val a.toNat).ramp ≠ none → t.arr k.val a.toNat = { s.arr k.val a.toNat with newFlags := 2 :: (s.arr k.val a.toNat).newFlags }
              ∧ (tget ((t.flagsDue k.val a.toNat).frame (.tcu k.val a.toNat)).flags 0x10 0).getLsbD 2 = true) ∧ t.mem = s.mem ∧ t.cores = s.cores)
      ∧ (∀ (d : Fin 8) (f : FrameId), s.target ag (s.bar0 (.ptb d.val) + 0x20) true = .frame (.ptb d.val) 0x20 0 → s.srm.testEnable = true → v.getLsbD 31 = true →
          s.regionFrame d.val (v.toNat % 2 ^ 24) = some (some f) → f ≠ .ptb d.val → hasParity f (v.toNat % 2 ^ 24 % 0x1000) = true →
          ∃ t, exec (.ptbFlipGo ag d v) s = .next t ∧ setHas (t.frame f).badParity (v.toNat % 2 ^ 24 % 0x1000) = !setHas (s.frame f).badParity (v.toNat % 2 ^ 24 % 0x1000)
            ∧ (t.frame f).regs = (s.frame f).regs ∧ (t.frame f).flags = (s.frame f).flags ∧ t.mem = s.mem ∧ t.cores = s.cores)
      ∧ (∀ d : Fin 8, s.target ag (s.bar0 (.ptb d.val) + 0x20) true = .frame (.ptb d.val) 0x20 0 → s.srm.testEnable = true → v.getLsbD 31 = true → v.toNat % 2 ^ 24 = 0xE00020 →
          ∃ t, exec (.ptbFlipGo ag d v) s = .next t ∧ setHas (t.frame (.ptb d.val)).badParity 0x20 = true ∧ t.mem = s.mem ∧ t.cores = s.cores)
      ∧ (∀ off : BitVec 28, 0x100000 ≤ off.toNat → off.toNat < 0x108000 → (∀ fn, ag = .host fn → fn.val = 0) → (∀ k, ag = .core k → s.atBoundary k.val = true ∧ s.boundaryCause k.val = none) →
        let denies := fun (c : Instr) => ∃ t, exec c s = .next t ∧ t.srm = { s.srm with denied := (s.srm.denied + 1) % 2 ^ 32 } ∧ t.frame .srm = s.frame .srm ∧ t.mem = s.mem ∧ ((∀ k, ag ≠ .core k) → t.cores = s.cores)
        denies (.strongroomWrite ag off v) ∧ (∀ n, denies (.plainRegisterWrite ag ⟨off, n⟩ v) ∧ denies (.setAliasWrite ag ⟨off, n⟩ v)))
      ∧ (∀ (e : Fin 16) (c : Fin 64), let f := FrameId.upe (e.val / 2) (e.val % 2)
        s.target ag (s.bar0 f + 0x408 + 16 * c.val) true = .frame f (0x408 + 16 * c.val) 0 → v.getLsbD 31 = true → (s.reg f (0x408 + 16 * c.val)).testBit 31 = false →
        ∃ t, exec (.upeRingEnableWrite ag e c v) s = .next t ∧ (t.reg f (0x408 + 16 * c.val)).testBit 31 = decide (s.enabledRings f < 16)
          ∧ (16 ≤ s.enabledRings f → (tget (t.frame f).flags 0x10 0).getLsbD 3 = true ∧ t.reg f (0x408 + 16 * c.val) = s.reg f (0x408 + 16 * c.val)) ∧ t.mem = s.mem ∧ t.cores = s.cores)
      ∧ ∀ c : Fin 64, s.target ag (s.bar0 .revt + 0x108 + 16 * c.val) true = .frame .revt (0x108 + 16 * c.val) 0 → v.getLsbD 31 = true → (s.reg .revt (0x108 + 16 * c.val)).testBit 31 = false →
        let addr := s.reg .revt (0x100 + 16 * c.val) + 2 ^ 32 * s.reg .revt (0x104 + 16 * c.val)
        let lg := clampNat (v.toNat % 32) 6 16
        let okay := if c.val = 0 then decide (addr + (0x80 + 64 * 2 ^ lg) ≤ memTop) else s.rangeLent c.val addr (0x80 + 64 * 2 ^ lg)
        (okay = true → ∃ t r, exec (.evtRingEnableWrite ag c v) s = .next t ∧ t.ring c.val = some r ∧ r.addr = addr ∧ r.log2 = lg ∧ r.producer = 0 ∧ r.lost = 0 ∧ t.mem = s.mem ∧ t.cores = s.cores)
          ∧ (okay = false → exec (.evtRingEnableWrite ag c v) s = .next (s.raise .revt 0x40 1))

/-- The causes no instruction carries: the timer pends from CORE_TIMECMP on, the doorbell while a flag of CORE_DOORBELL is set, the management cause until it is taken; a boundary takes the lowest pending unmasked imprecise cause, else the lowest unmasked interrupt unless IHOLD or DF holds it back, else nothing; with nothing to take the core stays as it is (log 3); and an undefined word at issue raises RESERVED_OPCODE whatever its guard, as a fault while entering a double fault, or is skipped when masked, a bundle on a multiple of 16 by 16 and any other word by 4 (log 23) (R132, R150, R349 to R351, R356, R381). -/
def Obligations.CausesWithoutInstruction : Prop :=
  ∀ (k : Fin 128) (s : State),
    let K := k.val
    (∀ now, exec (.intTimer k now) s = .next (s.advance now)
        ∧ (s.reg (.cu K) 0x530 + 2 ^ 32 * s.reg (.cu K) 0x534 ≤ ((s.advance now).copyOf (regionOf K)).toNat → ((s.advance now).pendingMask K).testBit 32 = true)
        ∧ (((s.advance now).copyOf (regionOf K)).toNat < s.reg (.cu K) 0x530 + 2 ^ 32 * s.reg (.cu K) 0x534 → (∀ c, c ∈ (s.core K).pend → c.code ≠ 32) → ((s.advance now).pendingMask K).testBit 32 = false))
      ∧ (s.siteOf K ≠ 0xFF → ∃ t, exec (.intMgmt k) s = .next t ∧ (t.pendingMask K).testBit 34 = true ∧ (t.core K).pc = (s.core K).pc ∧ (t.core K).istk = (s.core K).istk ∧ t.mem = s.mem ∧ ∀ j, j ≠ K → t.core j = s.core j)
      ∧ (s.atBoundary K = true → s.boundaryCause K = none → exec (.causeEntry k) s = .next s)
      ∧ (∀ c, s.atBoundary K = true → s.boundaryCause K = some c → exec (.causeEntry k) s = .next (((s.cancelWait K k.isLt).unpend K c.code).enter K c (s.core K).pc)
          ∧ ((s.core K).tileHold = false → (s.core K).pend.Pairwise (fun x y => x.code < y.code) → ∀ x, x ∈ (s.core K).pend → x.code < 32 → s.masked K x.code = false → c.code ≤ x.code)
          ∧ (∀ x, x ∈ [32, 33, 34] → 32 ≤ c.code → (s.pendingMask K).testBit x = true → s.masked K x = false → c.code ≤ x))
      ∧ (∀ c r, s.atBoundary K = true → (s.core K).pend = c :: r → c.code < 32 → s.masked K c.code = false → (s.core K).tileHold = false → s.inDf K = false → s.kspReason K = none →
          ∃ t, exec (.causeEntry k) s = .next t ∧ (t.core K).pc = s.vector K 0x518 ∧ t.ksp K = s.ksp K - 128 ∧ t.stat K = s.stat K ||| 3 ∧ (t.core K).waiting = none
            ∧ (t.core K).pend = (s.core K).pend.filter (fun x => x.code != c.code) ∧ (t.core K).istk = (s.core K).istk ∧ t.mem = s.mem ∧ ∀ j, j ≠ K → t.core j = s.core j)
      ∧ (∀ n, s.atBoundary K = true → n ∈ [32, 33, 34] → (s.core K).pend.all (fun x => decide (32 ≤ x.code) || s.masked K x.code) = true →
          (s.pendingMask K).testBit n = true → s.masked K n = false → (∀ m, m ∈ [32, 33, 34] → m < n → (s.pendingMask K).testBit m = false ∨ s.masked K m = true) →
          (s.ihold K = false → s.inDf K = false → s.kspReason K = none → ∃ t, exec (.causeEntry k) s = .next t ∧ (t.core K).pc = s.vector K 0x518 ∧ t.ksp K = s.ksp K - 128 ∧ t.stat K = s.stat K ||| 3
              ∧ (Memory.wf (s.core K).dmem = true → t.dmemNat K (s.ksp K - 128 + 0x0C) 4 = n) ∧ (t.core K).pend = (s.core K).pend.filter (fun x => x.code != n) ∧ t.mem = s.mem ∧ ∀ j, j ≠ K → t.core j = s.core j)
            ∧ (s.ihold K = true ∨ s.inDf K = true → exec (.causeEntry k) s = .next s))
      ∧ ((s.pendingMask K).testBit 33 = true ↔ tget (s.frame (.cu K)).flags 0x254 0 ≠ 0 ∨ ∃ c, c ∈ (s.core K).pend ∧ c.code = 33)
      ∧ ∀ w0 w1 w2 w3, s.atBoundary K = true → s.boundaryCause K = none → (s.core K).tileHold = false → decodeCore k ((s.core K).pc.toNat % 16 == 0) w0 w1 w2 w3 = none →
          (s.masked K 0 = false → (s.core K).entering = true → exec (.reservedOpcode k w0 w1 w2 w3) s = .next ((s.cancelWait K k.isLt).enteringFault K { code := 0, precise := true, info := w0.setWidth 64 } (s.core K).pc))
            ∧ (s.masked K 0 = false → (s.core K).entering = false → ∃ c, exec (.reservedOpcode k w0 w1 w2 w3) s = .next ((s.cancelWait K k.isLt).enter K c (s.core K).pc) ∧ c.code = 0 ∧ c.precise = true ∧ c.info = w0.setWidth 64)
            ∧ (s.masked K 0 = true → ∃ t, exec (.reservedOpcode k w0 w1 w2 w3) s = .next t ∧ (t.core K).istk = (s.core K).istk ∧ t.mem = s.mem
                ∧ (t.core K).pc = (s.core K).pc + (if isLeader w0 ∧ (s.core K).pc.toNat % 16 = 0 then 16 else 4))

/-! ## Update engines and collective engines -/

/-- Update engines: a ring waits on its object as any waiter does, latching the object and the identifier it waits under, and takes its next descriptor with one departure there (log 54); a descriptor that has run already is STALE and arrives (log 94); a range no longer lent disables the ring; a chunk whose granule is gone or that is poisoned ends the descriptor with nothing of it written; a chunk of pass 2 writes undo slots and IN_FLIGHT, then, as work in flight, its results and COMMITTED, and a granule withdrawn between the two leaves JWORD IN_FLIGHT; a chunk of pass 3 writes one block and its scale exponent; completion writes STATUS, then arrives on ASYNC, while the detector has frozen the context too; a chunk whose turn belongs to another context waits (log 81), as does one of a gated block; a message unanswered for 10 ms since a port began to send it ends a checkpoint; idle cases as log 3 (R388 to R390, R400, R402, R405, R409 to R411, R413, R417, R489). -/
def Obligations.UpdateEngineResults : Prop :=
  ∀ (e : Fin 16) (c : Fin 64) (s : State) (now : W64),
    let E := e.val
    let C := c.val
    let f := upeFrame E
    let cfg := s.reg f (0x408 + 16 * C)
    let head := s.reg f (0x40C + 16 * C)
    let a := s.reg f (0x400 + 16 * C) + 2 ^ 32 * s.reg f (0x404 + 16 * C) + 128 * (head % 2 ^ bits cfg 12 4)
    let ends := fun (x : State) (r : UpeRun) (code detail : Nat) => x.setUpe E C { r with phase := 6, code := code, detail := detail, outst := [] }
    (s.upeRuns E C = true →
      (∀ o id, (s.reg f 0).testBit 0 = true → cfg.testBit 31 = true → s.upeAt E C = none →
          (s.objOf (some C) (cfg % 4096) = some o → s.waitOf (.upe e c) = none → (s.obj o).counter < (s.obj o).target → ∃ t, exec (.upeTake e c) s = .next t
              ∧ t.waitOf (.upe e c) = some { who := .upe e c, obj := o, woken := false, ident := cfg % 4096 } ∧ t.upes = s.upes ∧ t.frames = s.frames ∧ t.mem = s.mem ∧ t.cores = s.cores)
            ∧ (s.waitOf (.upe e c) = some { who := .upe e c, obj := o, woken := true, ident := id } → s.stackRange E C a 128 = true →
              exec (.upeTake e c) s = .next ((((s.dropWait (.upe e c)).syncAct o 1 1 (srcCode 2 E) C id).setReg f (0x40C + 16 * C) ((head + 1) % 2 ^ 32)).upeTake e c a head))
            ∧ (s.waitOf (.upe e c) = some { who := .upe e c, obj := o, woken := true, ident := id } → s.stackRange E C a 128 = false → ∃ t, exec (.upeTake e c) s = .next t
              ∧ (t.reg f (0x408 + 16 * C)).testBit 31 = false ∧ t.reg f (0x40C + 16 * C) = head ∧ (tget (t.frame f).flags 0x10 0).getLsbD 5 = true ∧ t.upes = s.upes ∧ t.mem = s.mem ∧ t.cores = s.cores))
      ∧ (∀ (x : State) (num : Nat), fieldAt (x.upeRead E C a 128).bytes 0x78 8 ≠ 0 →
          let u := (x.upeRead E C a 128).st.layerStatus E C a num 4 0 0
          (layerAsync (x.upeRead E C a 128).bytes = none → x.upeTake e c a num = u)
            ∧ ∀ id, layerAsync (x.upeRead E C a 128).bytes = some id → x.upeTake e c a num = u.arriveOn (E / 2) C id 1 (srcCode 2 E))
      ∧ (∀ r, s.upeAt E C = some r → s.gatedNow (E / 2) (16 + E % 2) = false → r.results = none →
          (r.hasWork = true → s.turnOpen E C = false → exec (.upeChunk e c) s = .next s)
            ∧ (r.phase = 3 → s.turnOpen E C = true → let codes := (List.range 6).filter (fun x => (loadedTensors (r.prog.filter (fun x => !uReduces x))).contains x || (storedTensors r.prog).contains x)
            (s.readTensors E C r codes = none → exec (.upeChunk e c) s = .next (ends s r 6 r.chunk))
              ∧ (∀ x vals, s.readTensors E C r codes = some (x, vals, true) → exec (.upeChunk e c) s = .next (ends (x.event f 0x206 C 0 (u32 r.chunk)) r 5 r.chunk))
              ∧ (∀ x vals, s.readTensors E C r codes = some (x, vals, false) → x.rangeLent C r.journal 256 = false ∨ (storedTensors r.prog ≠ [] ∧ x.rangeLent C (fieldAt r.words 0x50 8) ((storedTensors r.prog).length * 0x10000) = false) →
                  exec (.upeChunk e c) s = .next (ends x r 6 r.chunk))
              ∧ (∀ x vals, s.readTensors E C r codes = some (x, vals, false) → x.rangeLent C r.journal 256 = true → (storedTensors r.prog = [] ∨ x.rangeLent C (fieldAt r.words 0x50 8) ((storedTensors r.prog).length * 0x10000) = true) →
                  let res := uRows r (r.prog.filter (fun x => !uReduces x)) 0 (rowsOfTensors codes (chunkOf r.words r.chunk) vals) r.partials r.flags
                  let old := (codes.zip vals).filterMap (fun y => if (storedTensors r.prog).contains y.1 then some y.2 else none)
                  let r' : UpeRun := { r with flags := res.2.2 }
                  exec (.upeChunk e c) s = .next (((x.writeUndo E C (fieldAt r.words 0x50 8) old).journalWord E C r' 2 r.chunk).setUpe E C
                    { r' with results := some ((storedTensors r.prog).map (fun code => (code, res.1.map (fun o => tget o code 0)))) })))
            ∧ (r.phase = 4 → s.turnOpen E C = true → ∀ x vals, s.readTensors E C r [0] = some (x, vals, false) → r.chunk + 1 < layerChunks r.words →
                let copy := fieldAt r.words 0x40 8 + 0x8000 * r.chunk
                let se := fieldAt r.words 0x48 8 + r.chunk
                let b := blockK16 (blockSe (vals.headD [])) (vals.headD [])
                x.rangeLent C copy (2 * chunkOf r.words r.chunk) = true → x.rangeLent C se 1 = true →
                  exec (.upeChunk e c) s = .next ((((x.upeWrite E C copy (b.1.flatMap u16) false).upeWrite E C se (u8 (wrapNat (blockSe (vals.headD [])) 8)) false).chunkDone E C).setUpe E C { r with flags := r.flags ||| b.2, chunk := r.chunk + 1, done := if layerKind r.words = 1 then r.chunk + 1 else r.done })))
      ∧ (∀ r, s.upeAt E C = some r → s.gatedNow (E / 2) (16 + E % 2) = true → exec (.upeChunk e c) s = .next s)
      ∧ (∀ r res, s.upeUp E = true → s.upeAt E C = some r → s.gatedNow (E / 2) (16 + E % 2) = false → r.results = some res →
          let lent := s.rangeLent C r.journal 256 && res.all (fun x => s.rangeLent C (r.chunkRange x.1).1 (r.chunkRange x.1).2)
          let x := s.writeResults E C r res
          let r' : UpeRun := { r with results := none }
          (lent = false → exec (.upeChunk e c) s = .next (ends x r' 6 r.chunk))
            ∧ (lent = true → r.chunk + 1 < layerChunks r.words → exec (.upeChunk e c) s = .next (((x.journalWord E C r' 3 r.chunk).chunkDone E C).setUpe E C { r' with chunk := r.chunk + 1, done := r.chunk + 1 }))
            ∧ (lent = true → layerChunks r.words ≤ r.chunk + 1 → exec (.upeChunk e c) s = .next (((x.journalWord E C r' 3 r.chunk).chunkDone E C).afterPass2 E C { r' with chunk := r.chunk + 1, done := r.chunk + 1 })))
      ∧ (s.upeUp E = true → ∀ r, s.upeAt E C = some r → r.phase = 6 → let u := ({ s with upes := tdel s.upes (E, C) } : State).layerStatus E C r.addr r.num r.code r.flags r.detail
                (layerAsync r.words = none → exec (.upeLayerComplete e c) s = .next u) ∧ ∀ id, layerAsync r.words = some id → exec (.upeLayerComplete e c) s = .next (u.arriveOn (E / 2) C id 1 (srcCode 2 E))))
      ∧ let u := s.advance now
        u.upeUp E = true → ∀ r o t, u.upeAt E C = some r → r.phase = 5 → o ∈ r.outst → o.sent = some t → t + 10000000 ≤ u.pm.ran → exec (.ckptAckTimeout e c now) s = .next (ends u r 14 0)

/-- Collective engines and wakes: a stage is taken with one departure once its wait on the ring's object is over, and one whose STATUS is not 0 is STALE and sets STAGE_FAILED; it launches not before LAUNCH_T, late only when that had passed as it became ready; with everything answered it sends its arrival on RSYNC, then STATUS and the arrival on ASYNC, while the detector has frozen the context too; a message unanswered for 10 ms ends it LINK_FAILED; a woken core completes its WAIT, and a wake that has not come wakes nothing, by the model's choice (log 3); an access that a frozen stack controller does not accept leaves the engine where it is (R322 to R324, R334, R446, R449, R450, R458). -/
def Obligations.StageResults : Prop :=
  let served := fun (s : State) (c : Instr) (f : State → State) => (s.serves f → exec c s = .next (f s)) ∧ (¬s.serves f → exec c s = .next s)
  (∀ (d : Fin 8) (c : Fin 64) (s : State),
    let D := d.val
    let C := c.val
    let f := FrameId.ce D
    let cfg := s.reg f (0x408 + 16 * C)
    let head := s.reg f (0x40C + 16 * C)
    let a := s.reg f (0x400 + 16 * C) + 2 ^ 32 * s.reg f (0x404 + 16 * C) + 64 * (head % 2 ^ bits cfg 12 4)
    s.ceRuns D C = true →
      (∀ o id, (s.reg f 0).testBit 0 = true → cfg.testBit 31 = true → (∀ g, g ∈ s.stagesOf D C → 2 ≤ g.phase) → s.waitOf (.ce d c) = some { who := .ce d c, obj := o, woken := true, ident := id } →
          (s.rangeLent C a 64 = true → served s (.stageTake d c) (fun s => (((s.dropWait (.ce d c)).syncAct o 1 1 (srcCode 3 D) C id).setReg f (0x40C + 16 * C) ((head + 1) % 2 ^ 32)).stageBegin d c a head))
            ∧ (s.rangeLent C a 64 = false → ∃ t, exec (.stageTake d c) s = .next t ∧ (t.reg f (0x408 + 16 * C)).testBit 31 = false ∧ t.reg f (0x40C + 16 * C) = head
                ∧ (tget (t.frame f).flags 0x10 0).getLsbD 4 = true ∧ t.links = s.links ∧ t.mem = s.mem)))
  ∧ (∀ (d : Fin 8) (c : Fin 64) (s : State) (i : Nat) (g : Stage),
    let D := d.val
    let C := c.val
    s.ceUp D = true → ((List.range (s.stagesOf D C).length).zip (s.stagesOf D C)).find? (fun x => x.2.settled) = some (i, g) →
      (stageRsync g.words = none ∨ g.code ≠ 0 ∨ g.phase ≠ 2 → served s (.stageComplete d c) (fun s => s.stageFinish D C i g))
        ∧ (∀ id, stageRsync g.words = some id → g.code = 0 → g.phase = 2 → (s.candidates g.dstId).isEmpty = false →
            let p := s.stageSend D C { g with phase := 3 } { typ := 6, addr := id } 0
            exec (.stageComplete d c) s = .next (p.1.setStage D C i p.2)))
  ∧ (∀ (d : Fin 8) (c : Fin 64) (s : State) (a num : Nat),
    let D := d.val
    let C := c.val
    let rd := s.readPhys (.ce D) C a 64
    fieldAt rd.bytes 0x38 8 ≠ 0 → s.stageBegin d c a num = rd.st.stageStatus D C a num 4 0 0
      ∧ (tget ((s.stageBegin d c a num).frame (.ce D)).flags 0x10 0).getLsbD 0 = true)
  ∧ (∀ (d : Fin 8) (c : Fin 64) (s : State) (now : W64),
    let D := d.val
    let C := c.val
    let u := s.advance now
    u.ceRuns D C = true →
      (∀ i g, u.newestStage D C = some (i, g) → g.phase = 1 →
          (stageTimed g.words = true → (u.copyOf D).toNat < stageTime g.words → exec (.stageLaunch d c now) s = .next u)
            ∧ ((stageTimed g.words = true → stageTime g.words ≤ (u.copyOf D).toNat) →
                let goes := fun (u : State) =>
                  let x := if stageTimed g.words = true ∧ stageTime g.words < g.ready.toNat then u.bump (.ce D) 0xC00 1 else u
                  let p := x.stageSendAll D C { g with phase := 2 } (cutsOf (stageRemote g.words) (stageLen g.words))
                  (p.1.setStage D C i p.2).moved D C
                (u.candidates g.dstId).isEmpty = false → u.rangeLent C (stageLocal g.words) (stageLen g.words) = true →
                  (u.serves goes → exec (.stageLaunch d c now) s = .next (goes u)) ∧ (¬u.serves goes → exec (.stageLaunch d c now) s = .next u))))
  ∧ (∀ (d : Fin 8) (c : Fin 64) (s : State) (now : W64),
    let D := d.val
    let C := c.val
    let u := s.advance now
    u.ceUp D = true → (u.stagesOf D C).any (fun g => g.outst.any (fun o => o.unanswered 10000000 u.pm.ran)) = true →
          ∃ t, exec (.stageMessageTimeout d c now) s = .next t ∧ (t.stagesOf D C).length = (u.stagesOf D C).length ∧ t.mem = u.mem ∧ t.frames = u.frames
            ∧ ∀ (i : Nat) (g : Stage), (u.stagesOf D C)[i]? = some g →
              (t.stagesOf D C)[i]? = some (if g.outst.any (fun o => o.unanswered 10000000 u.pm.ran) = true then { g with phase := 4, code := 14, detail := 0, outst := [] } else g))
  ∧ ∀ (k : Fin 128) (who : Waiter) (s : State),
    (∀ o x, s.waitOf who = some { who := who, obj := o, woken := false, ident := x } → exec (.waitWake who) s = .next s)
      ∧ ∀ (i : Issue) (o o' x : Nat) (w : Waiting) (id : W64) (r : List W64), s.waitOf (.core k) = some { who := .core k, obj := o, woken := true, ident := x } → s.portHolds k.val o = false → (s.core k.val).waiting = some w → w.kind = .sync o' → w.instr = .wait i → i.core = k →
          s.issuesNow i → s.onCore k.val 1 0 0 0 → (s.core k.val).istk = id :: r → s.objOf (s.coreCtx k.val) id.toNat = some o → s.fenceWrites k.val = [] →
          exec (.waitWake (.core k)) s = .next ((((s.issued k.val k.isLt).acquire k.val).ipop k.val 1).skip k.val 4)

/-! ## Links -/

/-- Link ports: flits go out with their CRC and stay in the replay buffer until acknowledged, with 512 of them only a flit of control; a flit with a wrong CRC, or one after a gap, is answered with a NAK, after which all is discarded up to the replayed flit (logs 53, 59); the eighth NAK in a row, sent or received, that no accepted flit interrupts retrains the port; an LCTL goes first in a flit when one is due, and in any case after 40 flits without room for one (log 63), frees what it acknowledges and grants credit; a lane that fails by R436 is dropped and the rest replay (log 90); training ends UP with the partner's credit or gives up after 50 ms (logs 34, 57); ports train when enabled and close when disabled; margins measure on demand; idle cases as log 3 (R429 to R439, R457, R459). -/
def Obligations.LinkPortResults : Prop :=
  (∀ (p : Fin 12) (s : State) (flit : RowBits) (seq : BitVec 12) (cws : List Codeword) (now : W64),
    let P := p.val
    let u := (s.advance now).decoded P cws
    let x := u.lport P
    let b := leBytes 256 flit.toNat
    let good := crc32c (b.take 252) = fieldAt b 252 4
    let behind := (x.rxSeq + 4096 - seq.toNat) % 4096
    (s.advance now).portSends P = true →
      (¬good → (x.discarding = true ∧ behind ≠ 0 → exec (.flitReceive p ⟨flit, seq, cws, now⟩) s = .next (u.bump (.port P) 0x110 1))
          ∧ (x.discarding = false ∨ behind = 0 →
            exec (.flitReceive p ⟨flit, seq, cws, now⟩) s = .next ((u.bump (.port P) 0x110 1).modLport P (fun y => { y with nakDue := true, discarding := true }))))
      ∧ (good → behind = 0 →
          let y := splitMsgs (x.rxPart ++ b.take 252).length (x.rxPart ++ b.take 252)
          ∃ t, exec (.flitReceive p ⟨flit, seq, cws, now⟩) s = .next t ∧ (t.lport P).rxSeq = (x.rxSeq + 1) % 4096 ∧ (t.lport P).rx = x.rx ++ y.1 ∧ (t.lport P).rxPart = y.2.1 ∧ (t.lport P).naks = 0
            ∧ (t.lport P).discarding = false ∧ (t.lport P).lctlDue = true
            ∧ (y.2.2 = true → (tget (t.frame (.port P)).flags 0x10 0).getLsbD 3 = true) ∧ t.mem = u.mem ∧ t.cores = u.cores ∧ ∀ q, q ≠ P → t.lport q = u.lport q)
      ∧ (good → 2048 < behind → x.discarding = false →
          exec (.flitReceive p ⟨flit, seq, cws, now⟩) s = .next (u.modLport P (fun y => { y with nakDue := true, discarding := true })))
      ∧ (good → behind ≠ 0 → (behind ≤ 2048 ∨ x.discarding = true) → exec (.flitReceive p ⟨flit, seq, cws, now⟩) s = .next u))
  ∧ (∀ (p : Fin 12) (s : State) (now : W64),
    let P := p.val
    let u := s.advance now
    let x := u.lport P
    let may := x.replay.length < 512 ∨ (x.replay.length < 4095 ∧ x.part = [] ∧ u.lctlNow P = true)
    (u.portSends P = true →
        (∀ q f, x.replayFrom = some q → x.replay.find? (fun f => f.seq == q) = some f →
            let body := match (if u.lctlNow P then f.hole else none) with
              | some h => patch f.body h (lctlBytes x (u.creditTold P))
              | none => f.body
            ∃ t, exec (.flitSend p now) s = .next t
            ∧ t.out = u.out ++ [.flit P (BitVec.ofNat 2048 (leNat (body ++ u32 (crc32c body))))] ∧ (t.lport P).replay = x.replay ∧ (t.lport P).txSeq = x.txSeq ∧ (t.lport P).tx = x.tx ∧ t.mem = u.mem
            ∧ (f.hole.isSome = true → x.nakDue = true → (x.naks < 7 → x.naksGot < 8 → (t.lport P).naks = x.naks + 1 ∧ (t.lport P).state = 2)
                ∧ (x.naks = 7 → u.links.selfId.isSome = true → (t.lport P).naks = 0 ∧ (t.lport P).state = 1 ∧ (t.lport P).retraining = true)))
          ∧ (x.replayFrom = none → may → x.closing = false → ∃ t w, exec (.flitSend p now) s = .next t
            ∧ t.out = u.out ++ [.flit P w] ∧ (t.lport P).txSeq = (x.txSeq + 1) % 4096 ∧ (t.lport P).replay.length = x.replay.length + 1 ∧ t.mem = u.mem ∧ t.cores = u.cores ∧ (∀ q, q ≠ P → t.lport q = u.lport q)
            ∧ (x.part = [] → (∀ m, m ∈ x.tx → m.vc ≠ 4) → u.lctlNow P = true ∨ 40 ≤ x.sinceHole →
                (leBytes 256 w.toNat).take 32 = lctlBytes x (u.creditTold P) ∧ (t.lport P).sinceHole = 0 ∧ (t.lport P).nakDue = false
                  ∧ (x.nakDue = true → x.naks = 7 → u.links.selfId.isSome = true → (t.lport P).naks = 0 ∧ (t.lport P).state = 1 ∧ (t.lport P).retraining = true)))
          ∧ (x.replayFrom = none → ¬may → exec (.flitSend p now) s = .next (u.creditStall P)))
      ∧ (x.state = 1 → x.trainStart + 50000000 ≤ u.pm.ran → x.retraining = false → exec (.trainingTimeout p now) s = .next (u.portDown P))
      ∧ (x.state = 1 → x.trainStart + 50000000 ≤ u.pm.ran → x.retraining = true → exec (.trainingTimeout p now) s = .next (u.linkDown P))
      ∧ (u.portRuns P = true → x.state = 0 → (u.reg (.port P) 0).testBit 0 = true → x.lastTry + 100000000 ≤ u.pm.ran → exec (.trainingRetry p now) s = .next (u.startTraining P false))
      ∧ ∀ (ag : Agent) (l : Fin 8), u.target ag (u.bar0 (.lane P l.val)) true = .frame (.lane P l.val) 0 0 → u.links.selfId.isSome = true →
          ∃ t, exec (.ltrainRetrain ag p l now) s = .next t ∧ (t.lport P).state = 1 ∧ (t.lport P).retraining = (x.state != 0) ∧ (t.lport P).asked.testBit l.val = true ∧ (t.lport P).trainStart = u.pm.ran ∧ t.mem = u.mem
            ∧ (x.state ≠ 0 → (t.lport P).replay = x.replay ∧ (tget (t.frame (.port P)).flags 0x10 0).getLsbD 1 = true))
  ∧ ∀ (p : Fin 12) (l : Fin 8) (s : State) (ag : Agent) (v : W32) (lanes h w : BitVec 8) (tr : List LaneTraining) (e : LinkExchange),
    let P := p.val
    let x := s.lport P
    let without := fun (m : Nat) => m &&& (255 ^^^ 2 ^ l.val)
    (∀ b rest, s.portRuns P = true → s.nextRx P 10 = some (b, rest) →
        let m := parseMsg b
        let y := (((s.consume P b rest).creditStall P).modLport P (fun z => { z.free (m.addr % 4096) with granted := [m.txn % 65536, m.txn / 65536 % 65536, m.corr % 65536, m.corr / 65536 % 65536] })).creditStall P
        let got := (if (y.lport P).replay.length < x.replay.length then 0 else x.naksGot) + (if m.addr.testBit 15 = true then 1 else 0)
        let y := y.modLport P (fun z => { z with naksGot := got })
        let again := if ((y.lport P).replay.any (fun f => f.seq == (m.addr % 4096 + 1) % 4096)) = true then (y.modLport P (fun z => { z with replayFrom := some ((m.addr % 4096 + 1) % 4096) })).bump (.port P) 0x118 1 else y
        (m.addr.testBit 15 = false → exec (.lctl p) s = .next y)
          ∧ (m.addr.testBit 15 = true → got < 8 → x.naks < 8 → exec (.lctl p) s = .next again)
          ∧ (m.addr.testBit 15 = true → 8 ≤ got → exec (.lctl p) s = .next (again.retrain P)
              ∧ (x.state ≠ 0 → s.links.selfId.isSome = true → ((again.retrain P).lport P).state = 1 ∧ ((again.retrain P).lport P).retraining = true ∧ ((again.retrain P).lport P).replay = (y.lport P).replay
                  ∧ ((again.retrain P).lport P).naksGot = 0 ∧ (again.retrain P).mem = s.mem)))
      ∧ (∀ c, s.portRuns P = true →
          (s.laneFails P l.val c = false → exec (.laneDegraded p l c) s = .next s)
            ∧ (s.laneFails P l.val c = true → x.state = 2 → x.lanes.testBit l.val = true →
              let y := ((({ s with links := { s.links with fec := tdel s.links.fec (P, l.val) } } : State).setLport P { x with lanes := without x.lanes }).laneDropped P l.val (laneCauseNo c))
              exec (.laneDegraded p l c) s = .next (if without x.lanes = 0 then y.linkDown P else y.replayAt P x.oldest))
            ∧ (s.laneFails P l.val c = true → x.state = 1 → x.allow.testBit l.val = true →
              exec (.laneDegraded p l c) s = .next ((s.setLport P { x with allow := without x.allow }).laneDropped P l.val (laneCauseNo c))))
      ∧ (s.portRuns P = true → x.state = 1 →
          ((∃ n, n < 8 ∧ laneUp x lanes tr n = true) → ∃ t, exec (.portUp p lanes ⟨tr, e⟩) s = .next t
            ∧ (t.lport P).state = 2 ∧ (∀ n, n < 8 → (t.lport P).lanes.testBit n = laneUp x lanes tr n) ∧ (t.lport P).lctlDue = true ∧ (t.lport P).retraining = false
            ∧ (x.retraining = false → (t.lport P).limit = [e.vc0.toNat, e.vc1.toNat, e.vc2.toNat, e.vc3.toNat] ∧ t.out = s.out ++ [.linkUp P x.acked x.freeUnits])
            ∧ (x.retraining = true → (t.lport P).granted = [e.vc0.toNat, e.vc1.toNat, e.vc2.toNat, e.vc3.toNat] ∧ (t.lport P).replay = afterAck e.ack.toNat x.replay
                ∧ (t.lport P).replayFrom = ((t.lport P).replay.head?).map (·.seq) ∧ t.out = s.out ++ [.linkUp P x.acked x.freed])
            ∧ t.mem = s.mem ∧ t.cores = s.cores ∧ ∀ q, q ≠ P → t.lport q = s.lport q)
          ∧ ((∀ n, n < 8 → laneUp x lanes tr n = false) →
              let y := s.lanesTrained P x lanes tr (List.range 8)
              exec (.portUp p lanes ⟨tr, e⟩) s = .next (if x.retraining then y.linkDown P else y.modLport P (fun z => { z with allow := 0 }))))
      ∧ (s.target ag (s.bar0 (.port P)) true = .frame (.port P) 0 0 →
          (v.getLsbD 0 = true → (s.reg (.port P) 0).testBit 0 = false → s.links.selfId.isSome = true →
            ∃ t, exec (.lnkEnableWrite ag p v) s = .next t ∧ (t.reg (.port P) 0).testBit 0 = true ∧ (t.lport P).state = 1 ∧ (t.lport P).retraining = false ∧ (t.lport P).allow = s.reg (.port P) 8 % 256 ∧ (t.lport P).trainStart = s.pm.ran ∧ t.mem = s.mem)
          ∧ (v.getLsbD 0 = false → (s.reg (.port P) 0).testBit 0 = true →
            ∃ t, exec (.lnkEnableWrite ag p v) s = .next t ∧ (t.reg (.port P) 0).testBit 0 = false ∧ t.mem = s.mem
              ∧ (x.state = 2 ∧ ¬(x.tx = [] ∧ x.part = []) → t.lport P = { x with closing := true }) ∧ (x.state ≠ 2 ∨ x.tx = [] ∧ x.part = [] → (t.lport P).state = 0)))
      ∧ (s.target ag (s.bar0 (.lane P l.val) + 0x20) true = .frame (.lane P l.val) 0x20 0 →
          ∃ t, exec (.marginStart ag p l) s = .next t ∧ tget t.links.margins (P, l.val) false = true ∧ (t.regNow (.lane P l.val) 0x20).testBit 0 = true ∧ (t.reg (.lane P l.val) 0x20).testBit 1 = false ∧ t.mem = s.mem)
      ∧ (s.portRuns P = true → tget s.links.margins (P, l.val) false = true →
          ∃ t, exec (.marginDone p l h w) s = .next t ∧ t.reg (.lane P l.val) 0x20 = 2 + 256 * h.toNat + 65536 * w.toNat ∧ tget t.links.margins (P, l.val) false = false
            ∧ (∀ f o, (f, o) ≠ (.lane P l.val, 0x20) → t.reg f o = s.reg f o) ∧ t.mem = s.mem)

/-- Received messages: a request for this module, rank and a job of a context here is performed and answered, any other is refused with its reason and counted, a record of no context too; one for another module has no effect but its credit (log 67); answers go to the stage, descriptor or scan that waits for their tag, and a REFUSE of a forwarded record is counted as lost (log 58); what a frozen stack controller does not accept stays in its buffer (R440 to R445, R449, R451, R452, R524). -/
def Obligations.MessageResults : Prop :=
  ∀ (p : Fin 12) (s : State) (b : List Byte) (rest : List (List Byte)), s.portRuns p.val = true →
    let P := p.val
    let D := (portRegion P).1
    let m := parseMsg b
    let u := s.consume P b rest
    let comes := fun (typ : Nat) => s.nextRx P typ = some (b, rest)
    let mine := s.links.selfId = some m.dstId
    let serves := fun (c : Instr) (f : State → State) => (s.serves f → exec c s = .next (f s)) ∧ (¬s.serves f → exec c s = .next s)
    (s.links.selfId ≠ some m.dstId → (comes 0 → exec (.write p) s = .next u) ∧ (comes 2 → exec (.read p) s = .next u) ∧ (comes 1 → exec (.writeRed p) s = .next u) ∧ (comes 6 → exec (.arriveMessage p) s = .next u)
        ∧ (comes 3 → exec (.readData p) s = .next u) ∧ (comes 4 → exec (.ack p) s = .next u) ∧ (comes 5 → exec (.refuse p) s = .next u) ∧ (comes 7 → exec (.eventMessage p) s = .next u))
      ∧ (mine → ∀ reason, u.acceptMsg m m.len = .inl reason → (comes 0 → exec (.write p) s = .next (u.refuseMsg P m reason)) ∧ (comes 2 → exec (.read p) s = .next (u.refuseMsg P m reason)) ∧ (comes 1 → exec (.writeRed p) s = .next (u.refuseMsg P m reason)))
      ∧ (mine → ∀ c, u.acceptMsg m m.len = .inr c →
          (comes 0 → serves (.write p) (fun s =>
              let z := ((s.consume P b rest).moved D c).writePhys (.port P) c (m.addr % 2 ^ 41) m.data m.poison
              z.respond c { z.response m 4 with poison := m.poison }))
          ∧ (comes 2 → serves (.read p) (fun s =>
              let rd := ((s.consume P b rest).moved D c).readPhys (.port P) c (m.addr % 2 ^ 41) m.len
              rd.st.respond c { rd.st.response m 3 with poison := rd.poison, len := m.len, data := rd.bytes }))
          ∧ (comes 1 → m.opt < 3 → serves (.writeRed p) (fun s =>
              let d := regionOfPa (m.addr % 2 ^ 41)
              let r := Reduced.elements ⟨(s.consume P b rest).moved D c, 0, m.poison⟩ d c m.opt m.poison (m.addr % 2 ^ 41) (wholeElements (if m.opt = 2 then 2 else 4) m.data)
              let z := (r.st.bump (.ce d) 0xC10 m.data.length).moved d c
              let z := if r.fl % 8192 = 0 then z else z.raise (.ce d) 0x10 1
              z.respond c { z.response m 4 with poison := r.poison, corr := r.fl % 8192 })))
      ∧ (mine → comes 6 → (∀ c, u.acceptMsg m 1 = .inr c → let z := (u.moved D c).arriveOn D c (m.addr % 4096) 1 (srcCode 4 P)
            exec (.arriveMessage p) s = .next (z.respond c (z.response m 4)))
          ∧ (u.acceptMsg m 1 = .inl 4 → let j := (u.ctxOfJob m.job).getD 0
            exec (.arriveMessage p) s = .next (((u.moved D j).arriveOn D j (m.addr % 4096) 1 (srcCode 4 P)).refuseMsg P m 4))
          ∧ ∀ reason, reason ≠ 4 → u.acceptMsg m 1 = .inl reason → exec (.arriveMessage p) s = .next (u.refuseMsg P m reason))
      ∧ (mine → ∀ reason, u.acceptHead m = .inl reason → (comes 3 → exec (.readData p) s = .next (u.refuseMsg P m reason)) ∧ (comes 4 → exec (.ack p) s = .next (u.refuseMsg P m reason))
          ∧ (comes 5 → m.txn ≠ eventTxn → exec (.refuse p) s = .next (u.refuseMsg P m reason)))
      ∧ (mine → comes 5 → m.txn = eventTxn → exec (.refuse p) s = .next (u.setReg .revt 0x804 ((u.reg .revt 0x804 + 1) % 2 ^ 32)))
      ∧ (m.job = 0xFFFF → ∃ reason, u.acceptHead m = .inl reason)
      ∧ (mine → comes 7 → ∀ reason, u.eventRefused m = some reason → exec (.eventMessage p) s = .next (u.refuseMsg P m reason))
      ∧ (mine → comes 7 → u.eventRefused m = none → accepts (classOf (remoteRecord m).code) (tget s.ev.root 9 []).length = true →
          ∃ t, exec (.eventMessage p) s = .next t ∧ tget t.ev.root 9 [] = tget s.ev.root 9 [] ++ [remoteRecord m] ∧ (remoteRecord m).remote = some m.srcId ∧ t.mem = s.mem ∧ t.cores = s.cores ∧ t.frames = s.frames)
      ∧ (mine → ∀ j d c i g o, u.acceptHead m = .inr j → u.stageWaiting m.txn = some (d, c, i, g, o) →
          let left : Stage := { g with outst := g.outst.filter (fun x => x.txn != m.txn) }
          (comes 4 → m.typ = 4 → exec (.ack p) s = .next ((u.moved d c).setStage d c i { left with flags := left.flags ||| m.corr % 8192, poison := left.poison || m.poison }))
            ∧ (comes 5 → m.typ = 5 → m.txn ≠ eventTxn → exec (.refuse p) s = .next ((u.moved d c).setStage d c i { left with code := 16, detail := m.opt }))
            ∧ (comes 3 → m.typ = 3 → u.rangeLent c o.localPa (m.data.take o.len).length = true →
                serves (.readData p) (fun s => ((((s.consume P b rest).moved d c).writePhys (.ce d) c o.localPa (m.data.take o.len) m.poison).bump (.ce d) 0xC10 (m.data.take o.len).length).setStage d c i left)))
      ∧ (mine → ∀ j, u.acceptHead m = .inr j → u.stageWaiting m.txn = none → u.upeWaiting m.txn = none → u.scanAnswer m = none → m.txn ≠ eventTxn →
          (comes 3 → exec (.readData p) s = .next u) ∧ (comes 4 → exec (.ack p) s = .next u) ∧ (comes 5 → exec (.refuse p) s = .next u))
      ∧ ∀ (ag : Agent) (d : Fin 8) (c : Fin 64) (v : W32), s.target ag (s.bar0 (.ce d.val) + 0x800 + 4 * c.val) true = .frame (.ce d.val) (0x800 + 4 * c.val) 0 →
          ∃ t, exec (.ceSeedWrite ag d c v) s = .next t ∧ t.reg (.ce d.val) (0x800 + 4 * c.val) = v.toNat
            ∧ (∀ l, l < 64 → let x := v ^^^ BitVec.ofNat 32 ((l + 1) * 0x9E3779B9); (tget t.links.ceGens (d.val, c.val) [])[l]? = some (if x = 0 then 1 else x)) ∧ t.mem = s.mem ∧ t.cores = s.cores

/-- Postmark alignment: a request goes out every 10 us with the next departure's time (log 62), a received one is answered with its arrival time less CORR, the first offset, half the sum rounded either way (log 66), steps the master and locks it, later ones slew it, more than 1 us off unlocks it, and so does 100 ms without an alignment; before that nothing happens (log 3) (R340, R341, R453). -/
def Obligations.PostmarkAlignment : Prop :=
  ∀ (p : Fin 12) (now : W64) (s : State),
    let P := p.val
    let u := s.advance now
    (u.pm.source = some P → u.portSends P = true → u.pm.lastReq.toNat + 10000 ≤ u.pm.master.toNat → ∃ t m, exec (.pmReqSend now) s = .next t
        ∧ (t.lport P).tx = (u.lport P).tx ++ [m] ∧ m.vc = 4 ∧ m.bytes.length = 32 ∧ fieldAt m.bytes 0 1 % 16 = 8 ∧ t.pm.lastReq = u.pm.master ∧ t.mem = u.mem ∧ t.cores = u.cores)
      ∧ (∀ b rest, u.portRuns P = true → u.nextRx P 8 = some (b, rest) → ∃ t m, exec (.pmReq p now) s = .next t
        ∧ (t.lport P).tx = (u.lport P).tx ++ [m] ∧ m.vc = 4 ∧ fieldAt m.bytes 0 1 % 16 = 9 ∧ fieldAt m.bytes 0x10 8 = ((u.pm.master.toNat : Int) - sext (parseMsg b).corr 32).toNat % 2 ^ 64 ∧ (t.lport P).rx = rest ∧ t.pm = u.pm ∧ t.mem = u.mem)
      ∧ (∀ b rest t1, u.portRuns P = true → u.nextRx P 9 = some (b, rest) → u.pm.exchange = some t1 → u.pm.source = some P →
        let m := parseMsg b
        let t3 : Int := (m.addr : Int) + ((((m.txn : Int) - (m.addr : Int)) % (2 ^ 32 : Int)))
        let sum : Int := (t1.toNat : Int) - (m.addr : Int) + ((u.pm.master.toNat : Int) - sext m.corr 32 - t3)
        ∃ o : Int, (o = sum / 2 ∨ (sum % 2 = 1 ∧ o = sum / 2 + 1)) ∧ ∃ t, exec (.pmRsp p now) s = .next t ∧ t.pm.offset = o ∧ t.pm.exchange = none ∧ t.mem = u.mem
          ∧ (u.pm.stepped = true → t.pm.slew = o ∧ t.pm.master = u.pm.master ∧ t.pm.lastAlign = u.pm.master ∧ t.pm.locked = decide (o.natAbs ≤ 1000) ∧ t.cores = u.cores)
          ∧ (u.pm.stepped = false → t.pm.master = BitVec.ofNat 64 ((u.pm.master.toNat : Int) - o).toNat ∧ t.pm.locked = true ∧ t.pm.stepped = true ∧ t.pm.slew = 0 ∧ t.pm.lastAlign = t.pm.master))
      ∧ (u.pwr.ready = true → u.pm.locked = true → u.pm.lastAlign.toNat + 100000000 ≤ u.pm.master.toNat → ∃ t, exec (.pmUnlocked now) s = .next t
        ∧ t.pm.locked = false ∧ t.pm.master = u.pm.master ∧ (∀ d, d < 8 → (tget (t.frame (.sync d)).flags 0 0).getLsbD 5 = true) ∧ t.mem = u.mem ∧ t.cores = u.cores)
      ∧ (u.pm.lastAlign.toNat + 100000000 > u.pm.master.toNat → exec (.pmUnlocked now) s = .next u)

/-! ## Host port, SMBus, dockets -/

/-- The host port: a BAR2 access inside the function's window and its granules reaches device memory and no other byte, a refused read aborts, a refused write is dropped and kept in BAR2ERR, one outside the window is an Unsupported Request and reported, one longer than the port takes is malformed (log 82), and the link may have corrected an error on the way (log 135); virtual functions come and go; a watch that is reached disarms and interrupts by its MSI-X entry (log 82); a function resets at once or after its docket (log 103); a docket is submitted, acknowledged and read by letterbox and by SMBus. That one command, SMB_BLOCK_WRITE, carries the bad PEC of every SMBus transaction, that a submit or a discard clears the overflow bit, and that an idle command changes nothing is the model's choice (logs 120, 85, 3) (R364, R460, R465 to R473, R481). -/
def Obligations.HostPortResults : Prop :=
  (∀ (fn : Fin 64) (addr : BitVec 36) (len : Nat) (data : List Byte) (poisoned : Bool) (s : State),
    let f := fn.val
    let pa := s.reg (.func f) 0x20 % 2048 * 2 ^ 30 + addr.toNat
    let u := s.hostHop
    let aer := fun (s : State) (g : Nat) (x : AerError) => (tget s.host.fns g {}).aer.contains x
    let serves := fun (c : Instr) (g : State → State) => (u.serves g → exec c s = .next (g u)) ∧ (¬u.serves g → exec c s = .next u)
    (u.mem = s.mem ∧ u.frames = s.frames ∧ u.cores = s.cores ∧ u.caches = s.caches ∧ u.out = s.out ∧ ∀ g x, (aer s g x = true → aer u g x = true) ∧ (aer u g x = true → aer s g x = true ∨ (g = 0 ∧ x = .correctableInternal)))
      ∧ (4096 < len → ∃ t, exec (.bar2Read fn addr len) s = .next t ∧ aer t f .malformedTlp = true ∧ t.out = s.out ∧ t.mem = s.mem ∧ t.frames = s.frames ∧ t.cores = s.cores)
      ∧ (512 < data.length → ∃ t, exec (.bar2Write fn addr data poisoned) s = .next t ∧ aer t f .malformedTlp = true ∧ t.out = s.out ∧ t.mem = s.mem ∧ t.frames = s.frames ∧ t.cores = s.cores)
      ∧ (len ≤ 4096 → s.inBar2 f addr.toNat len = false → ∃ t, exec (.bar2Read fn addr len) s = .next t ∧ t.out = s.out ++ [.unsupported f] ∧ t.mem = s.mem ∧ t.frames = s.frames ∧ t.cores = s.cores
          ∧ (f ≤ s.host.vfs → aer t f .unsupportedRequest = true))
      ∧ (len ≤ 4096 → s.inBar2 f addr.toNat len = true → s.bar2Reach f pa len = false → ∃ t, exec (.bar2Read fn addr len) s = .next t ∧ t.out = s.out ++ [.abort f] ∧ t.mem = s.mem ∧ t.frames = s.frames ∧ t.cores = s.cores
          ∧ aer t f .completerAbort = true)
      ∧ (len ≤ 4096 → s.inBar2 f addr.toNat len = true → s.bar2Reach f pa len = true → serves (.bar2Read fn addr len) (fun x => x.completions f (lineCuts pa len))
          ∧ (0 < len → pa % 128 + len ≤ 128 → serves (.bar2Read fn addr len) (fun x => let r := x.readPhys (.func f) f pa len; { r.st with out := r.st.out ++ [.completion f r.bytes r.poison] })))
      ∧ (data.length ≤ 512 → s.inBar2 f addr.toNat data.length = false → ∃ t, exec (.bar2Write fn addr data poisoned) s = .next t ∧ t.mem = s.mem ∧ t.frames = s.frames ∧ t.cores = s.cores ∧ t.out = s.out
          ∧ (f ≤ s.host.vfs → aer t f .unsupportedRequest = true))
      ∧ (data.length ≤ 512 → s.inBar2 f addr.toNat data.length = true → s.bar2Reach f pa data.length = true →
          serves (.bar2Write fn addr data poisoned) (fun x => (if poisoned then x.aer f .poisonedTlp else x).writePhys (.func f) f pa data poisoned))
      ∧ (s.inBar2 f addr.toNat data.length = true → s.bar2Reach f pa data.length = true → data ≠ [] → pa % 128 + data.length ≤ 128 → (s.region (regionOfPa pa)).fenced = false → s.stackHeld pa = false →
          ∃ t, exec (.bar2Write fn addr data poisoned) s = .next t ∧ t.mem = memPut s.mem pa data ∧ t.cores = s.cores ∧ t.caches = s.caches ∧ (∀ b, b < pa ∨ pa + data.length ≤ b → memGet t.mem b = memGet s.mem b)
            ∧ (poisoned = true → aer t f .poisonedTlp = true))
      ∧ (data.length ≤ 512 → s.inBar2 f addr.toNat data.length = true → s.bar2Reach f pa data.length = false → ∃ t, exec (.bar2Write fn addr data poisoned) s = .next t
          ∧ (tget (t.frame (.func f)).flags 0x10 0).getLsbD 1 = true ∧ t.mem = s.mem ∧ t.cores = s.cores ∧ (poisoned = true → aer t f .poisonedTlp = true)
          ∧ ((tget (s.frame (.func f)).flags 0x10 0).getLsbD 1 = false → t.reg (.func f) 0x18 + 2 ^ 32 * t.reg (.func f) 0x1C = addr.toNat)))
  ∧ (∀ (fn : Fin 64) (n : BitVec 6) (w : BitVec 4) (now : W64) (gib : Nat) (s : State),
    let f := fn.val
    (fn.val ≤ s.host.vfs → exec (.functionLevelReset fn) s = .next (({ s with host := { s.host with flr := s.host.flr.filter (fun x => x != f) ++ [f] } } : State).tryFlr f))
      ∧ (s.host.vfs < fn.val → exec (.functionLevelReset fn) s = .next s)
      ∧ (s.host.vfs = 0 → exec (.vfEnable n) s = .next { s with host := { s.host with vfs := n.toNat, fns := tdelWhere s.host.fns (fun f => f != 0) } }) ∧ (s.host.vfs ≠ 0 → exec (.vfEnable n) s = .next s)
      ∧ (s.host.vfs = 0 → exec .vfDisable s = .next s)
      ∧ (s.host.vfs ≠ 0 → exec .vfDisable s = .next (({ s with host := { s.host with vfOff := true } } : State).afterDocket))
      ∧ ([1, 2, 4, 8, 16, 32, 64].contains gib = true → exec (.bar2Resize false gib) s = .next (({ s with host := { s.host with bar2Pf := gib } } : State).bar2Fit 0))
      ∧ ([1, 2, 4, 8, 16, 32, 64].contains gib = true → exec (.bar2Resize true gib) s = .next (({ s with host := { s.host with bar2Vf := gib } } : State).bar2Fits ((List.range s.host.vfs).map (· + 1))))
      ∧ ([1, 2, 4, 8, 16, 32, 64].contains gib = false → ∀ vf, exec (.bar2Resize vf gib) s = .next s)
      ∧ let u := s.advance now
        let off := 0x100 + 8 * w.toNat
        let id := tget u.host.watchIds (f, w.toNat) (u.reg (.func f) off % 4096)
        let x := tget u.host.fns f {}
        u.pwr.ready = true → f ≤ u.host.vfs → (u.reg (.func f) off).testBit 31 = true →
          (∀ o, u.objOf (some f) id = some o →
            (u.reg (.func f) (off + 4) % 2 ^ 31 ≤ (u.obj o).counter → ∃ t, exec (.watchPoll fn w now) s = .next t ∧ (t.reg (.func f) off).testBit 31 = false
                ∧ (tget (t.frame (.func f)).flags 0x10 0).getLsbD 3 = true ∧ t.sync = u.sync ∧ t.mem = u.mem ∧ t.cores = u.cores
                ∧ (x.busMaster = true → (x.msix.getD (2 + w.toNat) {}).masked = false → t.out = u.out ++ [.msix f (2 + w.toNat)])
                ∧ (x.busMaster = false ∨ (x.msix.getD (2 + w.toNat) {}).masked = true → t.out = u.out ∧ setHas (tget t.host.fns f {}).msixPending (2 + w.toNat) = true))
              ∧ ((u.obj o).counter < u.reg (.func f) (off + 4) % 2 ^ 31 → exec (.watchPoll fn w now) s = .next u))
          ∧ (u.objOf (some f) id = none → ∃ t, exec (.watchPoll fn w now) s = .next t ∧ (t.reg (.func f) off).testBit 31 = false ∧ (tget (t.frame (.func f)).flags 0x10 0).getLsbD 4 = true ∧ t.out = u.out ∧ t.mem = u.mem ∧ t.cores = u.cores))
  ∧ ∀ (fn : Fin 64) (data : List Byte) (len : Nat) (s : State),
    let v := Via.lb fn
    let driven := fun (m : OutMsg) => ({ s with out := s.out ++ [m] } : State)
    (s.target (.host fn) 0x4000 true = .frame (.lb fn.val) 0 0 → s.docketBusy v = false → s.replyReady v = false → ∃ t, exec (.lbSubmit fn) s = .next t
        ∧ t.host.dockets = s.host.dockets ++ [⟨v, (List.range 256).flatMap (fun i => u32 (s.reg (.lb fn.val) (0x800 + 4 * i))), false⟩] ∧ t.mem = s.mem ∧ t.cores = s.cores)
      ∧ (s.target (.host fn) 0x4000 true = .frame (.lb fn.val) 0 0 → s.docketBusy v = true ∨ s.replyReady v = true → ∃ t, exec (.lbSubmit fn) s = .next t
        ∧ t.host = s.host ∧ (tget (t.frame (.lb fn.val)).flags 0x10 0).getLsbD 1 = true ∧ t.mem = s.mem)
      ∧ (s.target (.host fn) 0x4008 true = .frame (.lb fn.val) 8 0 → ∃ t, exec (.lbAck fn) s = .next t ∧ t.replyReady v = false ∧ t.host.dockets = s.host.dockets ∧ t.mem = s.mem ∧ t.cores = s.cores)
      ∧ exec .smbReadStatus s = .next { s with out := s.out ++ [.smbus (u8 (b2n (s.docketBusy .smb) + 2 * b2n (s.replyReady .smb) + 4 * b2n (s.host.smbOvf || decide (1024 < s.host.smbAsm.length))))] }
      ∧ (0 < data.length → data.length ≤ 255 → exec (.smbBlockWrite ⟨data, true⟩) s = .next { s with host := { s.host with smbAsm := (s.host.smbAsm ++ data).take 1025 } })
      ∧ (data = [] ∨ 255 < data.length → exec (.smbBlockWrite ⟨data, true⟩) s = .next (driven .smbNack))
      ∧ (s.docketBusy .smb = false → s.replyReady .smb = false → s.host.smbAsm.length ≤ 1024 →
          exec .smbSubmit s = .next { s with host := { s.host with dockets := s.host.dockets ++ [⟨.smb, s.host.smbAsm, false⟩], smbAsm := [], smbOvf := false } })
      ∧ (s.docketBusy .smb = true ∨ s.replyReady .smb = true ∨ 1024 < s.host.smbAsm.length → exec .smbSubmit s = .next { s with host := { s.host with smbOvf := true } })
      ∧ (s.replyReady .smb = true → let b := ((tget s.host.replies .smb []).drop s.host.smbPos).take (min len 255)
          exec (.smbBlockRead len) s = .next { s with host := { s.host with smbPos := s.host.smbPos + b.length }, out := s.out ++ [.smbus b] })
      ∧ (s.replyReady .smb = false → exec (.smbBlockRead len) s = .next (driven .smbNack))
      ∧ exec .smbReplyAck s = .next { s with host := { s.host with replies := tdel s.host.replies .smb, smbPos := 0 }, out := if s.replyReady .smb then s.out ++ [.smbAlert false] else s.out }
      ∧ exec .smbDiscard s = .next { s with host := { s.host with smbAsm := [], smbOvf := false } }
      ∧ exec (.smbBlockWrite ⟨data, false⟩) s = .next (driven .smbNack)
      ∧ exec .smbAlertResponse s = .next { s with out := s.out ++ [if s.replyReady .smb then .smbus (u8 0x4C) else .smbNack] }

/-- Dockets of the catalogue: a core loan stops, quiesces, saves, resets, hands over and restores, and unforced gives up after 1,000 us; a granule, a sync range or a share changes hands with its generation, and a lent granule may be scrubbed (log 73); entries are read; a FREE core counts as one of context 0 for a site swap (log 107), whose failed self-test gives an open DETAIL (log 80); a docket that fails a check is answered with that status and no more, and one whose accesses a frozen stack controller does not accept waits (R19 to R22, R61, R367 to R378, R475, R476). -/
def Obligations.CatalogueDockets : Prop :=
  (∀ (v : Via) (b : List Byte) (s : State),
    let k := param b 0
    let c := dContext b
    let answers := fun (ins : Instr) (x : State) (st det : Nat) (res : List Byte) => exec ins s = .next (x.reply v b st det res)
    let works := fun (ins : Instr) (f : State → State) => (s.serves f → exec ins s = .next (f s)) ∧ (¬s.serves f → exec ins s = .next s)
    let does := fun (ins : Instr) (f : State → State) (st det : Nat) (res : List Byte) => works ins (fun s => (f s).reply v b st det res)
    (∀ st, s.host.dockets.find? (fun d => d.via == v) = some ⟨v, b, false⟩ → s.mayRun v = true → s.docketCheck v b = some st →
        (dOpcode b = 0x0100 → answers (.coreLoan v) s st 0 []) ∧ (dOpcode b = 0x0700 → answers (.srmRead v) s st 0 []) ∧ (docketRow (dOpcode b) = none → answers (.echo v) s st 0 []))
      ∧ (s.docketRuns v 0x0100 b → (s.core k).loan = none →
          (∀ off, s.loanCheck v b = .inl off → answers (.coreLoan v) s 1 off [])
            ∧ ∀ l, s.loanCheck v b = .inr l → let lends := fun (s : State) => ({ s with cat := { s.cat with cores := tset s.cat.cores k { s.catCore k with state := 2 } } } : State).modCore k (fun x => { x with loan := some l })
              (l.wasFree = false → exec (.coreLoan v) s = .next ((lends s).begun v))
                ∧ (l.wasFree = true → l.restore = 0 → ∀ n, l.newCtx = some n → does (.coreLoan v) (fun s => ((lends s).loanSwitch k l).freshStart k l.startPc) 0 0 [])
                ∧ (l.wasFree = true → l.newCtx = none → does (.coreLoan v) (fun s => (lends s).loanSwitch k l) 0 0 []))
      ∧ (s.host.dockets.find? (fun d => d.via == v) = some ⟨v, b, true⟩ → dOpcode b = 0x0100 → s.mayRun v = true → ∀ l, (s.core k).loan = some l →
          (l.stopped = false → ∀ h : k < 128, ∀ u, s.loanStop k h l = some u → exec (.coreLoan v) s = .next (u.begun v))
            ∧ (l.stopped = true → s.loanQuiet k = false → exec (.coreLoan v) s = .next (s.begun v))
            ∧ (l.stopped = true → s.loanQuiet k = true →
              let moves := fun (s : State) => (if l.save ≠ 0 ∧ l.wasFree = false then s.saveImage k l (s.catCore k).ctx false else s).loanSwitch k l
              (l.newCtx = none → does (.coreLoan v) moves 0 0 [])
                ∧ ∀ n, l.newCtx = some n → (l.restore = 0 → does (.coreLoan v) (fun s => (moves s).freshStart k l.startPc) 0 0 [])
                  ∧ (l.restore ≠ 0 → works (.coreLoan v) (fun s =>
                    let r := (moves s).imageTop k n l.restore
                    if imageOkay r n = true then (r.st.restoreImage k n l.restore r.bytes).reply v b 0 0 [] else r.st.reply v b 3 0 []))))
      ∧ (s.docketRuns v 0x0101 b → k < 1280 → s.contextExists c = true → let e := tget s.cat.granules k {}
          let olds := if e.lent then (List.range 128).filter (fun j => s.coreCtx j == some e.ctx) else []
          does (.granuleLoan v) (fun s =>
            let u := ({ s with cat := { s.cat with granules := tset s.cat.granules k ⟨c, true, e.gen + 1⟩ } } : State).granuleCores k olds
            (if (param b 1).testBit 0 then u.scrubGranule k else u).ringLost e.ctx) 0 0 [])
      ∧ (s.docketRuns v 0x0102 b → s.contextExists c = true → k < 64 → param b 1 < 512 → s.rangeBusy (param b 1) = false →
          let u := s.clearRange (param b 1)
          ((param b 2).testBit 0 = false → s.physLent (param b 1) = false → answers (.syncLoan v) { u with cat := { u.cat with ranges := tset u.cat.ranges (c, k) (some (param b 1)) } } 0 0 [])
            ∧ ((param b 2).testBit 0 = true → s.syncRange c k = some (param b 1) → answers (.syncLoan v) { u with cat := { u.cat with ranges := tset u.cat.ranges (c, k) none } } 0 0 []))
      ∧ (s.docketRuns v 0x0103 b → s.contextExists c = true → param b 2 ≤ 16 →
          (k = 0 → param b 1 < 12 → ((List.range 64).filter (fun x => x != c)).foldl (fun m x => m + shareOf s.cat.linkShares x (param b 1)) (param b 2) ≤ 16 →
            answers (.shareSet v) { s with cat := { s.cat with linkShares := tset s.cat.linkShares (c, param b 1) (param b 2) } } 0 0 [])
          ∧ (k = 1 → param b 1 < 16 → ((List.range 64).filter (fun x => x != c)).foldl (fun m x => m + shareOf s.cat.upeShares x (param b 1)) (param b 2) ≤ 16 →
            answers (.shareSet v) { s with cat := { s.cat with upeShares := tset s.cat.upeShares (c, param b 1) (param b 2) } } 0 0 []))
      ∧ (s.docketRuns v 0x0104 b → k ≤ 4 → param b 1 < catCount k → param b 1 + param b 2 ≤ catCount k → s.rangeNamed v (param b 3) (4 * param b 2) = true →
          let word := fun i => let e := s.catEntry k (param b 1 + i); if viaFn v = 0 ∨ e.1 = some (viaFn v) then e.2 else 0
          does (.catRead v) (fun s => s.writePhys .mpwr 0xFF (param b 3) ((List.range (param b 2)).flatMap (fun i => u32 (word i))) false) 0 0 (u32 (param b 2)))
      ∧ (s.docketRuns v 0x0105 b → k < 128 → s.stopped k = true → (s.catCore k).state = 0 ∨ ((s.catCore k).state = 1 ∧ (s.catCore k).ctx = 0) → ∀ ok, let r := s.region (regionOf k)
          (r.spare = 0x1F → does (.siteSwap v ok) (fun s =>
              let gone := (s.newSite k).setRegion (regionOf k) { r with sites := listSet r.sites (k % 16) 0xFF }
              { gone with cat := { gone.cat with cores := tset gone.cat.cores k { s.catCore k with ctx := 0, state := 3 } } }) 0 0 (u8 0xFF))
            ∧ (r.spare ≠ 0x1F → ok = true → does (.siteSwap v ok) (fun s => (s.newSite k).setRegion (regionOf k) { r with sites := listSet r.sites (k % 16) r.spare, spare := 0x1F }) 0 0 (u8 r.spare))
            ∧ (r.spare ≠ 0x1F → ok = false → ∃ u det, answers (.siteSwap v ok) u 3 det [] ∧ u.regions = (s.setRegion (regionOf k) { r with spare := 0x1F }).regions ∧ u.mem = s.mem ∧ u.cores = s.cores)))
  ∧ (∀ (k : Fin 128) (now : W64) (s : State) (l : Loan) (d : Docket),
    let u := s.advance now
    let K := k.val
    (u.core K).loan = some l → u.host.dockets.find? (fun d => d.via == l.via) = some d → l.stopped = true → u.loanQuiet K = false → l.started + 1000000 ≤ u.pm.ran → l.force = false →
      let x := (if l.wasStopped then u else u.setStat K (u.stat K % 16)).modCore K (fun c => { c with loan := none })
      exec (.loanQuiesceTimeout k now) s = .next (({ x with cat := { x.cat with cores := tset x.cat.cores K { x.catCore K with state := 1 } } } : State).reply l.via d.bytes 2 0 []))
  ∧ (∀ (k : Fin 128) (now : W64) (s : State) (l : Loan) (d : Docket),
    let u := s.advance now
    let K := k.val
    (u.core K).loan = some l → u.host.dockets.find? (fun d => d.via == l.via) = some d → l.stopped = true → u.loanQuiet K = false → l.started + 1000000 ≤ u.pm.ran → l.force = true →
      let goes := fun (u : State) => ((u.abandonWork K).loanFinish K l true).settle l.via d.bytes
      (u.serves goes → exec (.loanQuiesceTimeout k now) s = .next (goes u)) ∧ (¬u.serves goes → exec (.loanQuiesceTimeout k now) s = .next u))
  ∧ ∀ (s : State) (g a : Nat), (s.region (regionOfPa (g * 2 ^ 30))).fenced = false → s.stackHeld (g * 2 ^ 30) = false → Memory.wf s.mem = true →
    memGet (s.scrubGranule g).mem a = if g * 2 ^ 30 ≤ a ∧ a < (g + 1) * 2 ^ 30 then 0 else memGet s.mem a

/-- Dockets of the links: identity, rank, job, routes and aliases in every port's copy, the time source, retraining, the step, and the scan of a buddy's slots, whose failure gives an open DETAIL (log 80) (R340, R416, R417, R437, R440, R441, R453). -/
def Obligations.LinkDocketResults : Prop :=
  ∀ (v : Via) (b : List Byte) (s : State),
    let x := param b 0
    let answers := fun (ins : Instr) (t : State) (st det : Nat) (res : List Byte) => exec ins s = .next (t.reply v b st det res)
    let links := fun (f : LinkSt → LinkSt) => ({ s with links := f s.links } : State)
    (s.docketRuns v 0x0200 b → (x ≤ 16383 → answers (.selfId v) (links (fun l => { l with selfId := some x })) 0 0 []) ∧ (16383 < x → answers (.selfId v) s 1 0x10 []))
      ∧ (s.docketRuns v 0x0201 b → (x ≤ 16383 → answers (.selfRank v) (links (fun l => { l with rank := x })) 0 0 []) ∧ (16383 < x → answers (.selfRank v) s 1 0x10 []))
      ∧ (s.docketRuns v 0x0202 b → s.contextExists (dContext b) = true → (x = 0xFFFF ∨ ∀ c, c < 64 → c ≠ dContext b → s.jobOf c ≠ x) → answers (.linkJob v) (links (fun l => { l with jobs := tset l.jobs (dContext b) x })) 0 0 [])
      ∧ (s.docketRuns v 0x0203 b → x ≤ 16383 → ∃ r, answers (.routeSet v) (links (fun l => { l with routes := r })) 0 0 []
          ∧ ∀ p i, tget r (p, i) 0 = if p < 12 ∧ i = x then param b 1 &&& 0x8FFF else tget s.links.routes (p, i) 0)
      ∧ (s.docketRuns v 0x0204 b → x ≤ 16383 → param b 1 ≤ 16383 → ∃ r, answers (.routeAlias v) (links (fun l => { l with aliases := r })) 0 0 []
          ∧ ∀ p i, tget r (p, i) 0 = if p < 12 ∧ i = x then param b 1 else tget s.links.aliases (p, i) 0)
      ∧ (s.docketRuns v 0x0205 b → x ≤ 1 → param b 1 < 12 → param b 2 ≤ 16383 → param b 2 + param b 3 ≤ 16384 → s.rangeNamed v (param b 4) (2 * param b 3) = true →
          let t := if x = 0 then s.links.routes else s.links.aliases
          let reads := fun (s : State) => (s.writePhys .mpwr 0xFF (param b 4) ((List.range (param b 3)).flatMap (fun i => u16 (tget t (param b 1, param b 2 + i) 0))) false).reply v b 0 0 (u32 (param b 3))
          (s.serves reads → exec (.routeRead v) s = .next (reads s)) ∧ (¬s.serves reads → exec (.routeRead v) s = .next s))
      ∧ (s.docketRuns v 0x0206 b → x < 12 → ((s.lport x).state = 2 → answers (.pmSource v) { s with pm := { s.pm with source := some x, lastReq := s.pm.master, exchange := none } } 0 0 [])
          ∧ ((s.lport x).state ≠ 2 → answers (.pmSource v) s 2 0 []))
      ∧ (s.docketRuns v 0x0206 b → x = 15 → answers (.pmSource v) { s with pm := { s.pm with source := none, lastReq := s.pm.master, exchange := none } } 0 0 [])
      ∧ (s.docketRuns v 0x0207 b → x < 12 → (s.reg (.port x) 0).testBit 0 = true → s.links.selfId.isSome = true → answers (.linkRetrain v) (s.retrain x) 0 0 [])
      ∧ (s.docketRuns v 0x0208 b → s.pm.source.isSome = true → s.pm.stepped = true →
          answers (.pmStep v) (s.stepMaster (BitVec.ofNat 64 ((s.pm.master.toNat : Int) - s.pm.slew).toNat)) 0 0 (u64 (wrapNat s.pm.slew 64)))
      ∧ (s.host.dockets.find? (fun d => d.via == v) = some ⟨v, b, true⟩ → dOpcode b = 0x0400 → s.mayRun v = true → ∀ y, s.host.scans.find? (fun z => z.via == v) = some y → y.failed = none → y.outst = [] → y.trailers = true →
          let res := fun (at_ : Nat) => slotResult ((y.headers.drop at_).take 256) ((y.got.drop at_).take 256)
          answers (.ckptScan v) { s with host := { s.host with scans := s.host.scans.filter (fun z => z.via != v) } } 0 0 (packResults 0x10 (res 0 ++ res 256)))
      ∧ (s.host.dockets.find? (fun d => d.via == v) = some ⟨v, b, true⟩ → dOpcode b = 0x0400 → s.mayRun v = true → ∀ y, s.host.scans.find? (fun z => z.via == v) = some y → y.failed ≠ none →
          ∃ det, answers (.ckptScan v) { s with freeCtr := s.freeCtr + 1, host := { s.host with scans := s.host.scans.filter (fun z => z.via != v) } } 3 det [])
      ∧ (s.docketRuns v 0x0400 b → s.host.scans.find? (fun z => z.via == v) = none → s.contextExists (dContext b) = true → x ≤ 16383 → param b 1 % 4096 = 0 → param b 1 < 2 ^ 41 → param b 2 % 4096 = 0 → param b 2 < 2 ^ 41 →
          ∃ t, exec (.ckptScan v) s = .next t ∧ (t.host.scans.find? (fun z => z.via == v)).isSome = true ∧ t.mem = s.mem ∧ t.cores = s.cores)

/-- Dockets of resets, recovery, dumps, power, strongroom, firmware, test and the host, each with its reply, and Moant's own start: what each reset does is stated in ResetScopes. The strongroom's record bytes and an image's level are its content in a layout that nothing states (log 12), the progress of a store being written is open (log 46), as is the DETAIL of a failure (log 80); a core that another reset has reset is not released (log 104), the released PC is a multiple of 4 (log 41), resuming a context that is not frozen is OK (log 106); a rollback waits for a command so that UPE_STATE shows it, and an invalid one fails (log 83) (R334, R337, R360, R361, R366, R407, R477, R478, R492, R497 to R499, R504 to R509, R530). -/
def Obligations.ModuleDockets : Prop :=
  ∀ (v : Via) (b : List Byte) (s : State),
    let x := param b 0
    let c := dContext b
    let free := fun i => (Config.freeValue (s.freeCtr + i)).toNat
    let answers := fun (ins : Instr) (t : State) (st det : Nat) (res : List Byte) => exec ins s = .next (t.reply v b st det res)
    let works := fun (ins : Instr) (f : State → State) => (s.serves f → exec ins s = .next (f s)) ∧ (¬s.serves f → exec ins s = .next s)
    (s.docketRuns v 0x0300 b → (s.tripHolds = none → answers (.moduleReset v) { s with pwr := { s.pwr with armed := true, trip := none } } 0 0 []) ∧ ∀ row, s.tripHolds = some row → answers (.moduleReset v) s 3 row [])
      ∧ (s.docketRuns v 0x0301 b → (x < 8 → answers (.regionReset v) (s.regionReset x) 0 0 []) ∧ (8 ≤ x → answers (.regionReset v) s 1 0x10 []))
      ∧ (s.docketRuns v 0x0302 b → s.contextExists c = true → ∀ h : c < 64, answers (.contextReset v) (s.contextReset ⟨c, h⟩) 0 0 [])
      ∧ (s.docketRuns v 0x0303 b → s.contextExists c = true → answers (.contextResume v) { s with sync := { s.sync with frozen := s.sync.frozen.filter (fun y => y != c) } } 0 0 [])
      ∧ (s.docketRuns v 0x0304 b → x < 128 → (s.catCore x).state ≠ 3 →
          (s.stopped x = true → (s.core x).stopBy ≠ 0 → answers (.coreRelease v) (((s.blockResetCore x).setPc x (codeAddr (BitVec.ofNat 64 (param b 1)))).setStat x 3) 0 0 [])
            ∧ (s.stopped x = false ∨ (s.core x).stopBy = 0 → answers (.coreRelease v) s 2 0 []))
      ∧ (s.docketRuns v 0x0306 b → ∀ h : x < 8, let n := param b 1
          (n < 16 → (s.catCore (16 * x + n)).state ≠ 3 → let held := s.stopped (16 * x + n) || s.frozen (.cu (16 * x + n)) || s.ctxFrozen (16 * x + n)
            (held = true → answers (.blockReset v) ((s.blockResetCore (16 * x + n)).modCore (16 * x + n) (fun y => { y with stopBy := 2 })) 0 0 []) ∧ (held = false → answers (.blockReset v) s 2 0 []))
          ∧ (16 ≤ n → n < 18 → answers (.blockReset v) (s.blockResetStack x (n - 16)) 0 0 [])
          ∧ (18 ≤ n → n < 20 → ∀ p, portAt x (n - 18) = some p → answers (.blockReset v) (s.blockResetPort p) 0 0 [])
          ∧ (n = 20 → answers (.blockReset v) (s.blockResetCe ⟨x, h⟩) 0 0 []) ∧ (20 < n → answers (.blockReset v) s 1 0x11 []))
      ∧ ((s.docketRuns v 0x0305 b ∨ (s.host.dockets.find? (fun d => d.via == v) = some ⟨v, b, true⟩ ∧ dOpcode b = 0x0305 ∧ s.mayRun v = true)) → x < 16 → param b 1 % 256 = 0 → inStack x (param b 1) 256 = true → s.rangeNamed v (param b 1) 256 = true →
          (s.journalBusy x (param b 1) = true → answers (.recover v) s 2 0 [])
            ∧ (s.journalBusy x (param b 1) = false → works (.recover v) (fun s => (s.recover x (tget s.cat.granules (param b 1 / 2 ^ 30) {}).ctx (param b 1)).settle v b)))
      ∧ (∀ e cx j, let rd := s.upeRead e cx j 256
          let state := fieldAt rd.bytes 4 2 % 8
          let chunk := fieldAt rd.bytes 0 4
          let answer := fun (u : State) (st n : Nat) => (⟨u, .with 0 0 (packResults 0x10 [(2, fieldAt rd.bytes 6 2), (1, st), (4, n)])⟩ : Done)
          (rd.poison = false → state ≠ 2 → s.recover e cx j = answer rd.st state (if state ≤ 1 then 0 else chunk + 1))
            ∧ (rd.poison = true ∨ (state = 2 ∧ rd.st.rollPlan e cx j rd.bytes = none) → ∃ u det, s.recover e cx j = ⟨u, .with 3 det []⟩ ∧ u.mem = rd.st.mem ∧ u.cores = rd.st.cores)
            ∧ ∀ r stored, rd.poison = false → state = 2 → rd.st.rollPlan e cx j rd.bytes = some (r, stored) →
                ((rd.st.turnsOf e).rolling = none → s.recover e cx j = ⟨rd.st.setRolling e (some (cx, chunk)), .goesOn⟩)
                  ∧ ((rd.st.turnsOf e).rolling ≠ none → s.recover e cx j = answer (rd.st.rollDone e cx j r stored (if chunk = 0 then 1 else 3) (chunk - 1) (fieldAt rd.bytes 6 2)) (if chunk = 0 then 1 else 3) chunk))
      ∧ (s.docketRuns v 0x0500 b → s.contextExists c = true → (∀ a, s.pmArea c = some a → works (.syncDump v) (fun s => ((s.writeDump c a (s.dumpHeader c 1)).raise (.sync (s.lead c)) 0 3).reply v b 0 0 []))
          ∧ (s.pmArea c = none → ∃ det, answers (.syncDump v) { s with freeCtr := s.freeCtr + 1 } 3 det []))
      ∧ (s.docketRuns v 0x0501 b → x < 128 → (s.catCore x).state ≠ 3 → viaFn v = 0 → answers (.deadletterRead v) s 0 0 (s.dmemBytes x 0x7FF00 256))
      ∧ (s.docketRuns v 0x0600 b → (1500 ≤ x → x ≤ 5600 → let g := min x s.sustained
            let y := if g = s.pwr.hostLimit then s else s.raise .mpwr 0 4
            answers (.powerLimit v) { y with pwr := { y.pwr with hostLimit := g } } 0 0 (u16 g))
          ∧ (x < 1500 ∨ 5600 < x → answers (.powerLimit v) s 1 0x10 []))
      ∧ (s.docketRuns v 0x0601 b → answers (.powerRead v) s 0 0 (packResults 0x10 [(4, s.pwr.mv), (4, s.pwr.ma), (2, s.pwr.watts), (2, s.pwr.hottest)]))
      ∧ (s.docketRuns v 0x0700 b → x ≤ 7 → param b 2 ≤ 992 → answers (.srmRead v) s 0 0 ((List.range (param b 2)).map (fun i => Config.recordByte x (s.srm.content x) (param b 1 + i))))
      ∧ (s.docketRuns v 0x0701 b → s.rangeNamed v x (param b 1) = true → param b 1 ≤ 65536 → let r := s.readPhys .mpwr 0xFF x (param b 1)
          (r.poison = false → r.st.packageOkay r.bytes = true → works (.srmUpdate v) (fun s =>
              let r := s.readPhys .mpwr 0xFF x (param b 1)
              let u := ({ r.st with srm := { r.st.srm with updates := lastOf 64 (r.st.srm.updates ++ [true]) } } : State).applyPackage r.bytes
              ({ u with host := { u.host with nvBusy := true } } : State).reply v b 0 0 []))
            ∧ (r.poison = true ∨ r.st.packageOkay r.bytes = false → ∃ det, works (.srmUpdate v) (fun s =>
              let r := s.readPhys .mpwr 0xFF x (param b 1)
              ({ r.st with freeCtr := r.st.freeCtr + 1, srm := { r.st.srm with updates := lastOf 64 (r.st.srm.updates ++ [false]) } } : State).reply v b 3 det [])))
      ∧ (s.docketRuns v 0x0800 b → s.rangeNamed v x (param b 1) = true → (s.host.nvBusy = true → answers (.fwUpdate v) s 2 0 [])
          ∧ (s.host.nvBusy = false → let r := s.readPhys .mpwr 0xFF x (param b 1)
            r.poison = false → Config.fwImageValid r.bytes = true → works (.fwUpdate v) (fun s =>
              let r := s.readPhys .mpwr 0xFF x (param b 1)
              ({ r.st with freeCtr := r.st.freeCtr + 1, host := { r.st.host with fwImage := true, fwStaged := (Config.freeValue r.st.freeCtr).setWidth 32, nvBusy := true } } : State).reply v b 0 0 [])))
      ∧ exec .nonvolatileWriteDone s = .next { s with host := { s.host with nvBusy := false } }
      ∧ (s.docketRuns v 0x0801 b → s.host.nvBusy = false → s.host.fwImage = true → answers (.fwActivate v) { s with host := { s.host with restart := true }, pwr := { s.pwr with moant := false } } 0 0 [])
      ∧ (s.docketRuns v 0x0802 b → answers (.fwInfo v) { s with freeCtr := s.freeCtr + 1 } 0 0
          (packResults 0x10 [(4, s.host.fwActive.toNat), (4, s.host.fwStaged.toNat), (1, if s.host.nvBusy then free 0 % 100 else 100)]))
      ∧ (s.docketRuns v 0x0900 b → answers (.testEnable v) { s with srm := { s.srm with testEnable := true, testHistory := s.srm.testHistory ++ [true] } } 0 0 [])
      ∧ (s.docketRuns v 0x0901 b → answers (.testDisable v)
          ((List.range 8).foldl State.clearPerturb { s with srm := { s.srm with testEnable := false, testHistory := s.srm.testHistory ++ [false] } }) 0 0 [])
      ∧ (s.docketRuns v 0x0801 b → s.host.nvBusy = true → answers (.fwActivate v) s 2 0 [])
      ∧ (s.docketRuns v 0x0A00 b → answers (.hostStatus v) s 0 0
          (packResults 0x10 [(1, b2n (s.host.linkUp && !s.pwr.perst)), (1, s.host.linkRate), (1, s.host.linkWidth), (1, s.host.vfs), (1, b2n s.pwr.input)]))
      ∧ (s.docketRuns v 0x0A01 b → answers (.echo v) s 0 0 ((b.take (dLength b - 4)).drop 0x10))
      ∧ (s.pwr.standby = true → exec .moantRunning s = .next { s with pwr := { s.pwr with moant := true }, host := { s.host with restart := false, fwActive := if s.host.restart then s.host.fwStaged else s.host.fwActive } })
      ∧ ∀ det res, s.host.flr = [] → s.host.vfOff = false → let t := s.reply v b 0 det res
        let body := u16 (dOpcode b) ++ u16 (20 + alignUp res.length 4) ++ ((b ++ List.replicate 8 0).drop 4).take 4 ++ u16 0 ++ u16 0 ++ u32 det ++ res ++ List.replicate (alignUp res.length 4 - res.length) 0
        tget t.host.replies v [] = body ++ u32 (crc32 body) ∧ (∀ w, w ≠ v → tget t.host.replies w [] = tget s.host.replies w []) ∧ t.docketBusy v = false ∧ t.mem = s.mem ∧ t.cores = s.cores

/-! ## Power, strongroom, conservators -/

/-- Power-up, samples, trips, clamps, grants, excursions, clocks and conservators: the module comes up through its steps and is ready; a sample, one microsecond of the strongroom's time (log 37), at a trip level takes the rails and device memory (logs 38, 42), one at a clamp level gates every block; the grants of a period are the water-fill (log 86) within caps, budget and the trailing 100 ms, a clamp's 90% of the draw (log 39); an excursion starts at most every 100 ms and is cut at 9 ms; means round down (log 87); every block of a region has its floor, and a core that wakes has its share back; a clock moves at most 8 steps a period and rises only when its rail has the voltage; PERST# also resets the configuration space (log 74) and the link trains as the partner allows (log 82); a lost clock quarantines its region; slacks are measured and plans made from them; idle cases as log 3 (R483 to R491, R495 to R503, R508, R509). -/
def Obligations.PowerResults : Prop :=
  (∀ (now : W64) (mv : Nat) (s : State),
    (∃ t, exec .standbyPowerOn s = .next t ∧ t.mem = [] ∧ t.memPoison = [] ∧ t.frames = [] ∧ t.pwr.rails = false ∧ t.pwr.ready = false ∧ t.pwr.moant = false ∧ t.pwr.input = false
        ∧ t.host.fwActive = s.host.fwActive ∧ t.srm.versions = s.srm.versions ∧ t.srm.testEnable = false ∧ (∀ f o, (t.frame f).accession = 0 ∧ tget (t.frame f).flags o 0 = 0))
      ∧ (let u := s.advance now;
        u.pwr.standby = true → u.pwr.softStart = false → (10000 ≤ u.pwr.inWindow → 54000 ≤ mv → mv ≤ 63000 → exec (.inputQualified now mv) s = .next { u with pwr := { u.pwr with input := true, softStart := true } })
          ∧ (u.pwr.inWindow < 10000 ∨ mv < 54000 ∨ 63000 < mv → exec (.inputQualified now mv) s = .next u))
      ∧ (s.pwr.standby = true → s.pwr.input = true → s.pwr.softStart = true → s.pwr.rails = false → s.mayRise = true → exec .railsGood s = .next { s with pwr := { s.pwr with rails := true, railsUp := [0, 19, 17, 18, 9, 10, 11, 12, 13, 14, 15, 16, 1, 2, 3, 4, 5, 6, 7, 8], armed := true, trip := none } })
      ∧ (∃ t, exec (.perst true) s = .next t ∧ t.pwr.perst = true ∧ t.pwr.ready = false ∧ t.host.vfs = 0 ∧ t.host.bar2Pf = 64 ∧ t.host.bar2Vf = 4 ∧ t.host.fns = [] ∧ t.mem = s.mem ∧ t.srm = { s.srm with shadow := s.srm.record2 })
      ∧ (let y := s.trainHost
        y.host.linkRate ∈ [1, 2, 4, 8, 16, 32] ∧ y.host.linkWidth ∈ [1, 2, 4, 8, 16] ∧ y.mem = s.mem ∧ y.frames = s.frames ∧ y.pwr = s.pwr ∧ y.cores = s.cores
          ∧ (s.tripHolds = none → exec (.perst false) s = .next { y with pwr := { y.pwr with perst := false, armed := true, trip := none } })
          ∧ (s.tripHolds ≠ none → exec (.perst false) s = .next { y with pwr := { y.pwr with perst := false } }))
      ∧ (s.pwr.resetting = true → s.pwr.rails = true → s.pwr.perst = false → s.pwr.lastArb.isSome = true → (∀ d, d < 8 → (tget s.csvs d {}).measured = true) →
          exec .moduleReady s = .next ((({ s with pm := {}, pwr := { s.pwr with resetting := false, ready := true } } : State).repairsUsed s.srm.repairs).event .mpwr 0x20A 0xFF 0 []))
      ∧ (s.pwr.resetting = false ∨ s.pwr.rails = false ∨ s.pwr.perst = true ∨ s.pwr.lastArb = none ∨ (∃ d, d < 8 ∧ (tget s.csvs d {}).measured = false) → exec .moduleReady s = .next s))
  ∧ (∀ (m : PowerSample) (s : State),
    let x := s.advance m.now
    let m' := { m with ma := min m.ma (if x.pwr.rails = true then x.srm.current else min 20000 x.srm.current) }
    let u := (x.takeSample m').inputFlags x.pwr.mv m.mv
    x.pwr.trip = none → u.pwr.trip = none
      ∧ (u.pwr.rails = true →
        (∀ row, (List.range 10).find? (u.tripAt m') = some row → exec (.srmSample m) s = .next (u.trip row (u.measured m' row))
            ∧ (u.trip row (u.measured m' row)).mem = [] ∧ (u.trip row (u.measured m' row)).pwr.rails = false ∧ (u.trip row (u.measured m' row)).pwr.ready = false
            ∧ (u.trip row (u.measured m' row)).srm.tripCount = (u.srm.tripCount + 1) % 2 ^ 32)
          ∧ (∀ row, (List.range 10).find? (u.tripAt m') = none → (List.range 10).find? (u.clampAt m') = some row → exec (.srmSample m) s = .next (u.clampNow row (u.measured m' row))
            ∧ (u.clampNow row (u.measured m' row)).mem = u.mem ∧ ∀ d b, 12 ≤ (u.clampNow row (u.measured m' row)).gateOf d b)
          ∧ ((List.range 10).find? (u.tripAt m') = none → (List.range 10).find? (u.clampAt m') = none → exec (.srmSample m) s = .next u))
      ∧ (u.pwr.rails = false → exec (.srmSample m) s = .next (if m.mv < 50000 then { u with pwr := { u.pwr with input := false, softStart := false } } else u)))
  ∧ (∀ (now : W64) (m : ArbInput) (s : State),
    (let u := s.advance now;
      ∀ t, u.pwr.clamp = some t → t + 100 ≤ u.pwr.sampled → exec (.clampRelease now) s = .next { u with pwr := { u.pwr with clamp := none } })
      ∧ (let u := s.advance now;
        (u.pwr.clamp = none ∨ (∃ t, u.pwr.clamp = some t ∧ u.pwr.sampled < t + 100)) → exec (.clampRelease now) s = .next u)
      ∧ (let u := s.advance m.now
        (u.periodDue = false → exec (.moduleArbitration m) s = .next u) ∧ (u.periodDue = true → u.arbitrates = false → exec (.moduleArbitration m) s = .next (u.railReport m.rails)))
      ∧ (let u := (s.advance m.now).railReport m.rails
        let draw := m.mv * min m.ma (if u.pwr.rails = true then u.srm.current else min 20000 u.srm.current) / 1000000
        let x := u.applyTables
        let y := ({ x with freeCtr := x.freeCtr + 8, pwr := { x.pwr with periods := (draw :: x.pwr.periods).take 10000, lastArb := some x.pm.ran } } : State)
        let now := y.pm.ran
        let sustained := min (min (u.srm.limits.getD 3 (0, 0)).1 u.pwr.hostLimit) (104 * m.mv / 1000)
        let peak := min (u.srm.limits.getD 1 (0, 0)).1 (u.srm.current * m.mv / 1000000)
        let room := sustained * 10000 - (y.pwr.periods.take 9999).foldl (· + ·) 0
        let plan := fun (peaking : Bool) => grantsFor m (y.capsFor m peaking (fun d => (Config.freeValue (u.freeCtr + d)).toNat))
          (min (if u.pwr.clamp.isSome = true then draw * 9 / 10 else if peaking = true then peak else sustained) room)
        let above := sustained < (plan true).foldl (· + ·) 0 + otherDraw m
        let plain := fun (y : State) => exec (.moduleArbitration m) s = .next (({ y with pwr := { y.pwr with grants := plan false, excursion := none } } : State).planRegions (List.range 8))
        let peaks := fun (t : Nat) => exec (.moduleArbitration m) s = .next (({ y with pwr := { y.pwr with grants := plan true, excursion := some t, lastExcursion := some t } } : State).planRegions (List.range 8))
        let spaced := ∀ t, u.pwr.lastExcursion = some t → t + 100000000 ≤ now
        (s.advance m.now).periodDue = true → u.arbitrates = true →
          (u.pwr.excursion = none → u.pwr.clamp.isSome = true ∨ u.pwr.hostLimit < 5600 ∨ ¬spaced ∨ ¬above → plain y)
            ∧ (u.pwr.excursion = none → u.pwr.clamp = none → 5600 ≤ u.pwr.hostLimit → spaced → above → peaks now)
            ∧ (∀ t, u.pwr.excursion = some t → now < t + 9000000 → (u.pwr.clamp = none → above → peaks t) ∧ (u.pwr.clamp.isSome = true ∨ ¬above → plain y))
            ∧ (∀ t, u.pwr.excursion = some t → t + 9000000 ≤ now → plain (y.raise .mpwr 0 3)))
      ∧ ∀ (caps : List Nat) (l d : Nat), caps.length = 8 → d < 8 →
        min 60 (caps.getD d 0) ≤ (grantsFor m caps l).getD d 0 ∧ (grantsFor m caps l).getD d 0 ≤ caps.getD d 0
          ∧ ((caps.map (min 60)).foldl (· + ·) 0 + otherDraw m ≤ l → (grantsFor m caps l).foldl (· + ·) 0 + otherDraw m ≤ l))
  ∧ ∀ (d : Fin 8) (now : W64) (s : State),
    let D := d.val
    (∀ (b : Fin 18) (events : List Nat) (n : BitVec 4), let u := s.advance now; u.pwr.ready = true →
        let e := u.activityOf D events
        let woke := u.pwr.lent.filter (fun x => regionOf x.1 == D && !(u.lenders D).contains x.1)
        let back := ({ u with pwr := { u.pwr with lent := tdelWhere u.pwr.lent (fun k => woke.any (fun x => x.1 == k))
                                                  activity := woke.foldl (fun t x => tset t (D, x.1 % 16) (max x.2 (tget t (D, x.1 % 16) 0))) u.pwr.activity } } : State).splitGrant D
        let v := if woke = [] then u else back
        let y := ({ v with pwr := { v.pwr with activity := tset v.pwr.activity (D, b.val) e } } : State)
        exec (.blockGating d b now events n) s = .next { y with pwr := { y.pwr with gates := tset y.pwr.gates (D, b.val) (if tget y.pwr.blockGrants (D, b.val) 0 * 1000000 < e then max 1 n.toNat else 0) } })
      ∧ (∀ b, b ∈ s.blocks D → 4 + Config.arrayPower ≤ tget (s.splitGrant D).pwr.blockGrants (D, b) 0)
      ∧ (let u := s.advance now;
        let old := u.pwr.steps.getD D 0
        let goal := u.pwr.goals.getD D 0
        let moved := ({ u with pwr := { u.pwr with steps := listSet u.pwr.steps D goal }, csvs := tmod u.csvs D {} (fun x => { x with stepSince := u.pm.ran }) } : State)
        ∀ step : Fin 57, u.pwr.ready = true → (u.region D).clockLost = false →
          (step.val = goal → goal < old → exec (.regionClockChange d step now) s = .next (moved.setVcore D (moved.tableMv D goal)))
            ∧ (step.val = goal → old < goal → u.tableMv D goal ≤ u.vcoreNow D → exec (.regionClockChange d step now) s = .next moved)
            ∧ (step.val ≠ goal ∨ goal = old ∨ (old < goal ∧ u.vcoreNow D < u.tableMv D goal) → exec (.regionClockChange d step now) s = .next u))
      ∧ (let u := s.planRegion D
        let step := u.pwr.steps.getD D 0
        let goal := u.pwr.goals.getD D 0
        D < s.pwr.goals.length → D < s.pwr.steps.length → goal ≤ step + 8 ∧ step ≤ goal + 8 ∧ (s.pwr.resetting = false → step = s.pwr.steps.getD D 0) ∧ u.vcoreTarget D = u.tableMv D (max step goal))
      ∧ (∀ mv ran, s.pm.ran ≤ ran → let u := s.setVcore D mv
        let moved := (ran - s.pm.ran) * 5 / 1000
        (({ u with pm := { u.pm with ran := ran } } : State).vcoreNow D) = if s.vcoreNow D ≤ mv then min mv (s.vcoreNow D + moved) else max mv (s.vcoreNow D - moved))
      ∧ (s.pwr.ready = true → (s.region D).clockLost = false → let u := s.regionReset D
          let x := (u.setRegion D { u.region D with clockLost := true }).event (.evt D) 0x10B 0xFF 0 []
          let y := ({ x with csvs := tmod x.csvs D {} (fun z => { z with stopped := some x.pm.ran }) } : State).quarantine D 1
          exec (.clockLost d) s = .next y ∧ (y.region D).fenced = true ∧ (y.region D).clockLost = true)
      ∧ (s.pwr.ready = false ∨ (s.region D).clockLost = true → exec (.clockLost d) s = .next s)
      ∧ (let u := s.advance now;
        let x := tget u.csvs D {}
        let t := u.srm.shadow.tables
        (∀ sl, u.frozen (.csv D) = true → exec (.slackMeasurementDone d now sl) s = .next u ∧ exec (.conservatorReplan d now) s = .next u)
        ∧ ((u.region D).clockLost = false → u.frozen (.csv D) = false →
          (∀ sl : List (BitVec 10), (u.pwr.ready = true ∧ x.stepSince + 150000 ≤ u.pm.ran) ∨ (u.pwr.resetting = true ∧ u.pwr.rails = true ∧ u.pwr.perst = false) →
              ∃ t, exec (.slackMeasurementDone d now sl) s = .next t ∧ (tget t.csvs D {}).measured = true
              ∧ (∀ i, i < 17 → tget (tget t.csvs D {}).slacks i 0x3FF = if (u.region D).active.testBit i then (sl.getD i 0x3FF).toNat / 2 * 2 else 0x3FF)
              ∧ ((t.worstSlack D).1 < u.reg (.csv D) 8 % 256 → (tget t.csvs D {}).request = true ∧ (tget (t.frame (.csv D)).flags 0 0).getLsbD 0 = true) ∧ t.mem = u.mem ∧ t.cores = u.cores)
            ∧ (u.pwr.ready = true → x.measured = true → x.request = true ∨ x.lastPlan + 600000000000 ≤ u.operated D → exec (.conservatorReplan d now) s = .next (u.replan D)
              ∧ (tget (u.replan D).csvs D {}).cap = capOf (marginTable t D (Config.csvRef t D - (u.worstSlack D).1) (u.reg (.csvCal D) 0 % 256)))
            ∧ (x.measured = false ∨ (x.request = false ∧ u.operated D < x.lastPlan + 600000000000) → exec (.conservatorReplan d now) s = .next u)))
      ∧ ∀ ag, s.target ag (regionBase D + 0xE04004) true = .frame (.csv D) 4 0 → ∃ t, exec (.csvReplanRequest ag d) s = .next t ∧ (tget t.csvs D {}).request = true ∧ t.mem = s.mem ∧ t.cores = s.cores

/-- A module reset that is due returns the catalogue to its state of R505: present cores FREE and absent ones ABSENT, every granule lent to context 0, the first 64 sync ranges to context 0, every share whole and with context 0, GEN kept; every register takes its reset value, those of the fuse shadow the trims that record 2 held, every port is DOWN and none trains before SELF_ID; device memory and the strongroom stand; when it completes the postmark is 0 (R505). -/
def Obligations.ModuleResetResults : Prop :=
  (∀ (s : State), s.pwr.armed = true → s.pwr.rails = true → s.pwr.perst = false → s.pwr.trip = none → ∃ t, exec .moduleResetStart s = .next t
    ∧ (∀ k, k < 128 → (t.catCore k).state = (if t.siteOf k = 0xFF then 3 else 0) ∧ (t.catCore k).gen = (s.catCore k).gen)
    ∧ (∀ g, t.granuleLent g 0 = true ∧ (tget t.cat.granules g {}).gen = (tget s.cat.granules g {}).gen)
    ∧ (∀ c r, r < 64 → t.syncRange c r = if c = 0 then some r else none)
    ∧ (∀ c u, shareOf t.cat.linkShares c u = (if c = 0 then 16 else 0) ∧ shareOf t.cat.upeShares c u = (if c = 0 then 16 else 0))
    ∧ (∀ f o, t.reg f o = t.resetOf f o % 2 ^ 32 ∧ tget (t.frame f).flags o 0 = 0 ∧ ((∀ p l, (f, o) ≠ (.lane p l, 0x10)) → (∀ d, f ≠ .csvCal d) → t.reg f o = regReset f o % 2 ^ 32))
    ∧ (∀ p l, t.reg (.lane p l) 0x10 = tget s.srm.record2.lanes (p, l) 0 % 65536)
    ∧ (∀ p, (t.lport p).state = 0 ∧ ∀ keep, t.startTraining p keep = t)
    ∧ t.mem = s.mem ∧ t.srm = { s.srm with shadow := s.srm.record2 } ∧ t.host.dockets.map (·.bytes) = s.host.dockets.map (·.bytes))
  ∧ ∀ (s : State), s.pwr.resetting = true → s.pwr.rails = true → s.pwr.perst = false → s.pwr.lastArb.isSome = true → (∀ d, d < 8 → (tget s.csvs d {}).measured = true) →
      ∃ t, exec .moduleReady s = .next t ∧ t.pwr.ready = true ∧ ∀ d, t.copyOf d = 0

/-! ## The event fabric, errors in stores -/

/-- Records travel from hub to root to ring, Registered first; a ring takes one record with its PRODUCER and an interrupt; CONSUMER is reread; counters are snapshot; corrections in a store are reported once per millisecond, those between counted into the next (log 131); errors in stores poison what they struck and are reported with its place (log 69), and those in control stores freeze their cell; parity in an instruction cache changes nothing (log 1); a stack reports; what a frozen stack controller does not accept waits; idle cases as log 3 (R235, R280, R514 to R528, R545). -/
def Obligations.EventFabric : Prop :=
  let works := fun (s : State) (c : Instr) (f : State → State) => (s.serves f → exec c s = .next (f s)) ∧ (¬s.serves f → exec c s = .next s)
  (∀ (s : State),
    (∀ d : Fin 8, ∀ r rest, s.pwr.ready = true → s.hubPick d.val = some (r, rest) → let buf := tget s.ev.root d.val []
        (accepts (classOf r.code) buf.length = true → exec (.hopForward (some d)) s
            = .next ((({ s with ev := { s.ev with hubs := tset s.ev.hubs d.val rest, root := tset s.ev.root d.val (buf ++ [r]), served := tset s.ev.served d.val r.inputNo } } : State).bump (.evt d.val) (0x20 + 8 * classOf r.code) 1).offer d.val s.ev.outbox.length))
          ∧ (accepts (classOf r.code) buf.length = false → exec (.hopForward (some d)) s = .next s))
      ∧ exec (.hopForward none) s = .next (s.offer 8 s.ev.outbox.length)
      ∧ (∀ x i r rest, s.ring 0 = some x → s.rootPick = some (i, r, rest) →
        (x.room (classOf r.code) = true → i ≠ 8 → works s .rootRingWrite (fun s =>
            ((((({ s with ev := { s.ev with root := tset s.ev.root i rest, served := tset s.ev.served 8 i } } : State).ringWrite 0 x r).ringCopy r).forwardRecord r x.producer).bump .revt (0x20 + 8 * classOf r.code) 1)))
          ∧ (x.room (classOf r.code) = false → exec .rootRingWrite s = .next s))
      ∧ (∀ (f : Fin 64) x, s.ring f.val = some x → works s (.consumerPoll f) (fun s =>
        let rd := s.readPhys .revt 0xFF (x.addr + 0x40) 4
        let v := BitVec.ofNat 32 (leNat rd.bytes)
        if v = x.consumer then rd.st else rd.st.setRing f.val { x with consumer := v, signalled := false })))
  ∧ (∀ (s : State) (f n : Nat) (x : RingSt) (r : EvRec), (s.region (regionOfPa x.addr)).fenced = false → (s.region (regionOfPa (x.addr + 0x80 + 64 * (x.producer.toNat % 2 ^ x.log2)))).fenced = false → s.stackHeld x.addr = false → s.stackHeld n = false →
    x.addr % 128 = 0 → (r.bytes x.producer).length = 64 → Memory.wf s.mem = true → n = x.addr + 0x80 + 64 * (x.producer.toNat % 2 ^ x.log2) →
    let t := s.ringWrite f x r
    (∀ i, i < 64 → memGet t.mem (n + i) = (r.bytes x.producer).getD i 0) ∧ (∀ i, i < 4 → memGet t.mem (x.addr + i) = (u32 (x.producer + 1).toNat).getD i 0)
      ∧ (∀ a, (a < n ∨ n + 64 ≤ a) → (a < x.addr ∨ x.addr + 4 ≤ a) → memGet t.mem a = memGet s.mem a)
      ∧ t.ring f = some { x with producer := x.producer + 1, signalled := true } ∧ t.cores = s.cores ∧ (x.signalled = true → t.out = s.out)
      ∧ (x.signalled = false → (tget s.host.fns f {}).busMaster = true → ((tget s.host.fns f {}).msix.getD 1 {}).masked = false → t.out = s.out ++ [.msix f 1]))
  ∧ (∀ (d : Fin 8) (j : Fin 2) (now : W64) (s : State) (temp : BitVec 8) (pa : BitVec 41) (count : W32),
    let D := d.val
    let J := j.val
    (let u := s.advance now;
      u.pwr.ready = true → (u.reg (.evt D) 0x10).testBit 0 = true → tget u.ev.snaps D 0 + max 1 (bits (u.reg (.evt D) 0x10) 8 16) * 1000 ≤ u.pm.ran →
        exec (.counterSnapshot d now) s = .next (({ u with ev := { u.ev with snaps := tset u.ev.snaps D u.pm.ran } } : State).snapFrames (u.counterFrames D)))
      ∧ (s.pwr.ready = true →
        (let y := ({ s with pwr := { s.pwr with stackTemps := tset s.pwr.stackTemps (D, J) temp.toNat } } : State);
            exec (.stackTempReport d j temp) s = .next (if (s.srm.limits.getD 7 (95, 105)).1 ≤ temp.toNat then y.raise (.stk D J) 0x40 3 else y))
          ∧ exec (.errorCheckAndScrub d j) s = .next (s.raise (.stk D J) 0x40 1) ∧ exec (.refreshOverrun d j) s = .next (s.raise (.stk D J) 0x40 5)
          ∧ (count ≠ 0 → let put := fun (t more : Nat) => ({ s.bump (.stk D J) 0x100 count.toNat with ev := { s.ev with ecc := tset s.ev.ecc (.stack d j) (t, more) } } : State)
            let last := (s.ev.ecc.find? (fun e => e.1 == EccSource.stack d j)).map (·.2)
            let reports := fun (n : Nat) => exec (.eccCorrected (.stack d j) count) s = .next ((put s.pm.ran 0).flagEvent (.stk D J) 0x40 2 0x20B 0xFF (u32 n))
            (last = none → reports count.toNat)
              ∧ ∀ t more, last = some (t, more) → (t + 1000000 ≤ s.pm.ran → reports (more + count.toNat))
                ∧ (s.pm.ran < t + 1000000 → exec (.eccCorrected (.stack d j) count) s = .next ((put t (more + count.toNat)).raise (.stk D J) 0x40 2)))
          ∧ (pa.toNat < memTop → ∃ t, exec (.memoryUncorrectable pa) s = .next t ∧ setHas t.memPoison (pa.toNat / 128) = true
              ∧ (tget (t.frame (.stk (regionOfPa pa.toNat) (stackOfPa pa.toNat))).flags 0x40 0).getLsbD 0 = true ∧ t.mem = s.mem ∧ t.cores = s.cores)))
  ∧ ∀ (k : Fin 128) (s : State),
    let K := k.val
    let said := fun (u : State) (f : FrameId) (n : Nat) => u.event f 0x20C (u.ctxByte K) 0 (u64 n)
    s.siteOf K ≠ 0xFF → s.pwr.ready = true →
      (∀ b : Fin 2048, exec (.doubleBitError k (.dmem b)) s = .next (said (s.modCore K (fun c => { c with dpoison := setAdd c.dpoison b.val })) (.cu K) b.val))
        ∧ (∀ (q : Fin 16) (i : Fin 64) e, (s.queue K q.val)[i.val]? = some e →
          exec (.doubleBitError k (.queue q i)) s = .next (said (s.setQueue K q.val (listSet (s.queue K q.val) i.val { e with poison := true })) (.ae K) (q.val * 64 + i.val)))
        ∧ (∀ (i : Fin 64) e, (s.cache K).tray[i.val]? = some e →
          exec (.doubleBitError k (.tray i)) s = .next (said (s.modCache K (fun c => { c with tray := listSet c.tray i.val { e with poison := true } })) (.mc K) (e.sector * 128)))
        ∧ (∀ (a : Fin 4) (t : Fin 8) (row : Fin 128), ∃ u, exec (.doubleBitError k (.tile a t row)) s = .next u ∧ (((u.arr K a.val).store t.val).raw row.val).poison = true
            ∧ (∀ b, b ≠ a.val → u.arr K b = s.arr K b) ∧ u.mem = s.mem ∧ u.cores = s.cores)
        ∧ (∀ (a : Fin 4) (t : Fin 2) (row : Fin 256), ∃ u, exec (.doubleBitError k (.accumulator a t row)) s = .next u ∧ (((u.arr K a.val).store (8 + t.val)).raw row.val).poison = true
            ∧ (∀ b, b ≠ a.val → u.arr K b = s.arr K b) ∧ u.mem = s.mem ∧ u.cores = s.cores)
        ∧ (∀ (a : Fin 4) (row : Fin 128), ∃ u, exec (.doubleBitError k (.weight a true row)) s = .next u ∧ (tget (u.arr K a.val).wShadow row.val {}).poison = true ∧ u.mem = s.mem ∧ u.cores = s.cores)
        ∧ (∀ (a : Fin 4) (row : Fin 128), ∃ u, exec (.doubleBitError k (.weight a false row)) s = .next u ∧ (∀ g, (u.arr K a.val).gens.getLast? = some g → (tget g.rows row.val {}).poison = true) ∧ u.mem = s.mem ∧ u.cores = s.cores)
        ∧ (∀ (set : Fin 256) (way : Fin 16) (sec : Fin 4), ∃ u, exec (.doubleBitError k (.mcache set way sec)) s = .next u ∧ u.mem = s.mem ∧ u.cores = s.cores
            ∧ ∀ e, (s.cache K).lines.find? (fun e => e.1 == (set.val, way.val)) = some e → (e.2.sectors.getD sec.val {}).valid = true → sec.val < e.2.sectors.length →
              ∃ l, (u.cache K).lines.find? (fun e => e.1 == (set.val, way.val)) = some ((set.val, way.val), l) ∧ (l.sectors.getD sec.val {}).poison = true)
        ∧ (∀ (store : ControlStore) (f : FrameId) (j : Nat), (∀ d, store ≠ .syncObject d) → (f, j) = (match store with
              | .commandQueue k a => (FrameId.tcu k.val a.val, k.val)
              | .descriptorTable k => (FrameId.ae k.val, k.val)
              | .sortingFrame k => (FrameId.ae k.val, k.val)
              | .syncObject d => (FrameId.sync d.val, 0)) → s.siteOf j ≠ 0xFF →
            (s.ownFrozen f = false → exec (.controlStoreUncorrectable store) s = .next ((s.modFrame f (fun fr => { fr with frozen := true })).event f 0x10C (s.ctxByte j) 0 (u8 0 ++ u8 1)))
              ∧ (s.ownFrozen f = true → exec (.controlStoreUncorrectable store) s = .next s))
        ∧ (∀ d : Fin 8, s.ownFrozen (.sync d.val) = false → exec (.controlStoreUncorrectable (.syncObject d)) s = .next ((s.modFrame (.sync d.val) (fun fr => { fr with frozen := true })).event (.sync d.val) 0x10C 0xFF 0 (u8 0 ++ u8 1)))
        ∧ (∀ count : W32, count ≠ 0 → let put := fun (t more : Nat) => ({ s with ev := { s.ev with ecc := tset s.ev.ecc (.core k) (t, more) } } : State)
            let last := (s.ev.ecc.find? (fun e => e.1 == EccSource.core k)).map (·.2)
            let reports := fun (n : Nat) => exec (.eccCorrected (.core k) count) s = .next ((put s.pm.ran 0).event (.cu K) 0x20B (s.ctxByte K) 0 (u32 n))
            (last = none → reports count.toNat)
              ∧ ∀ t more, last = some (t, more) → (t + 1000000 ≤ s.pm.ran → reports (more + count.toNat))
                ∧ (s.pm.ran < t + 1000000 → exec (.eccCorrected (.core k) count) s = .next (put t (more + count.toNat))))
        ∧ exec (.cacheParityError k .instruction) s = .next s
        ∧ ∀ i, ∃ u, exec (.cacheParityError k (.translation i)) s = .next u ∧ (∀ x, x ∈ (u.ae K).tlbM → x.1 ≠ i ∧ x ∈ (s.ae K).tlbM) ∧ (u.ae K).queues = (s.ae K).queues ∧ u.mem = s.mem ∧ u.cores = s.cores

/-! ## Number formats -/

/-- binary32 and binary64: what an encoding stands for; a NaN operand gives the first NaN, quietened, with INV for a signalling one or an operation invalid beside it; sums, products, quotients, square roots and fused multiply-adds of numbers are the exact result rounded once, exact zeros signed as IEEE 754 signs them, division by zero an infinity with DZ, and invalid operations the default NaN; comparisons order values, zeros equal; conversions to integers round and limit, those from integers and between the formats round once; the special values of the exponential and the logarithm (R86 to R89, R91, R139, R163). How a NaN's payload changes width is the model's choice (log 32). -/
def Obligations.NumberFormatArithmetic : Prop :=
  ∀ f : Fmt, f = fmt32 ∨ f = fmt64 → ∀ x y z : Nat, x < 2 * f.signBit → y < 2 * f.signBit → z < 2 * f.signBit →
    let nan := fun (a : Nat) => (f.num a).isNan
    let fin := fun (a : Nat) => (f.num a).isFin
    let val := fun (a : Nat) => (f.num a).value
    let signals := fun (l : List Nat) => l.any (fun a => decide (f.num a = .nan true))
    let firstNan := fun (a : Nat) (bad : Bool) => (⟨a ||| 2 ^ (f.frac - 1), if bad then f.inv else 0⟩ : FRes)
    let invalid := (⟨f.infBits + 2 ^ (f.frac - 1), f.inv⟩ : FRes)
    let zero := fun (s : Bool) => (⟨f.signed s 0, 0⟩ : FRes)
    let infinity := fun (s : Bool) => (⟨f.signed s f.infBits, 0⟩ : FRes)
    let apart := f.neg x != f.neg y
    let less := fun (a b : Nat) => (fin a = true ∧ fin b = true ∧ val a < val b) ∨ (f.num a = .inf true ∧ f.num b ≠ .inf true ∧ nan b = false) ∨ (f.num b = .inf false ∧ f.num a ≠ .inf false ∧ nan a = false)
    let same := (fin x = true ∧ fin y = true ∧ val x = val y) ∨ ∃ s, f.num x = .inf s ∧ f.num y = .inf s
    (let ex := x / 2 ^ f.frac % 2 ^ f.expw
      let m := x % 2 ^ f.frac
      (ex = 2 ^ f.expw - 1 → m = 0 → f.num x = .inf (f.neg x)) ∧ (ex = 2 ^ f.expw - 1 → m ≠ 0 → f.num x = .nan (!m.testBit (f.frac - 1)))
        ∧ (ex ≠ 2 ^ f.expw - 1 → fin x = true ∧ val x = (if f.neg x = true then -1 else 1) * (if ex = 0 then (m : Rat) * (2 : Rat) ^ (1 - (f.bias : Int) - f.frac) else ((2 ^ f.frac + m : Nat) : Rat) * (2 : Rat) ^ ((ex : Int) - f.bias - f.frac))))
      ∧ (∀ op, op = f.add ∨ op = f.sub ∨ op = f.mul ∨ op = f.div → (nan x = true → op x y = firstNan x (signals [x, y])) ∧ (nan x = false → nan y = true → op x y = firstNan y (signals [y])))
      ∧ (let zeroTimes := (decide (f.num x = .inf (f.neg x)) && fin y && decide (val y = 0)) || (fin x && decide (val x = 0) && decide (f.num y = .inf (f.neg y)))
        (nan x = true → f.fma x y z = firstNan x (signals [x, y, z])) ∧ (nan x = false → nan y = true → f.fma x y z = firstNan y (signals [y, z]))
          ∧ (nan x = false → nan y = false → nan z = true → f.fma x y z = firstNan z (signals [z] || zeroTimes)) ∧ (zeroTimes = true → nan z = false → f.fma x y z = invalid)
          ∧ (∀ s, nan x = false → nan y = false → zeroTimes = false → fin x = false ∨ fin y = false → (f.num z = .inf s → s ≠ apart → f.fma x y z = invalid) ∧ (fin z = true ∨ f.num z = .inf apart → f.fma x y z = infinity apart))
          ∧ (fin x = true → fin y = true → fin z = false → nan z = false → f.fma x y z = ⟨z, 0⟩))
      ∧ (fin x = true → fin y = true → let s := val x + val y
        (s ≠ 0 → f.rounds s (f.add x y)) ∧ (s = 0 → f.add x y = zero (decide (val x = 0) && f.neg x && f.neg y)))
      ∧ (fin x = true → fin y = true → let s := val x - val y
        (s ≠ 0 → f.rounds s (f.sub x y)) ∧ (s = 0 → f.sub x y = zero (decide (val x = 0) && f.neg x && !f.neg y)))
      ∧ (fin x = true → fin y = true → let s := val x * val y
        (s ≠ 0 → f.rounds s (f.mul x y)) ∧ (s = 0 → f.mul x y = zero apart))
      ∧ (fin x = true → fin y = true → (val x ≠ 0 → val y ≠ 0 → f.rounds (val x / val y) (f.div x y)) ∧ (val x = 0 → val y ≠ 0 → f.div x y = zero apart)
        ∧ (val x ≠ 0 → val y = 0 → f.div x y = ⟨f.signed apart f.infBits, f.dz⟩) ∧ (val x = 0 → val y = 0 → f.div x y = invalid))
      ∧ (fin x = true → fin y = true → fin z = true → let s := val x * val y + val z
        (s ≠ 0 → f.rounds s (f.fma x y z)) ∧ (s = 0 → f.fma x y z = zero (decide (val z = 0) && apart && f.neg z)))
      ∧ (∀ s, f.num x = .inf s → (fin y = true → f.add x y = ⟨x, 0⟩ ∧ f.add y x = ⟨x, 0⟩ ∧ f.sub x y = ⟨x, 0⟩ ∧ f.sub y x = infinity (!s) ∧ f.div x y = infinity apart ∧ f.div y x = zero apart
            ∧ (val y ≠ 0 → f.mul x y = infinity apart ∧ f.mul y x = infinity apart) ∧ (val y = 0 → f.mul x y = invalid ∧ f.mul y x = invalid))
          ∧ (∀ t, f.num y = .inf t → f.mul x y = infinity apart ∧ f.div x y = invalid ∧ f.add x y = (if s = t then ⟨x, 0⟩ else invalid) ∧ f.sub x y = (if s = t then invalid else ⟨x, 0⟩)))
      ∧ ((nan x = true → f.sqrt x = firstNan x (signals [x])) ∧ (f.num x = .inf false → f.sqrt x = ⟨x, 0⟩) ∧ (f.num x = .inf true → f.sqrt x = invalid)
        ∧ (fin x = true → (val x = 0 → f.sqrt x = ⟨x, 0⟩) ∧ (val x < 0 → f.sqrt x = invalid)
          ∧ (0 < val x → let r := f.sqrt x
            fin r.v = true ∧ r.v < f.signBit ∧ nearestRoot (fun w => ∃ y, fin y = true ∧ val y = w) (r.v % 2 = 0) (val r.v) (val x) ∧ r.fl = if val r.v * val r.v = val x then 0 else f.inx)))
      ∧ (∀ cc, cc < 8 → let un := nan x || nan y
        (f.cmp cc x y).2 = (if signals [x, y] || (un && decide (2 ≤ cc) && decide (cc ≤ 5)) then f.inv else 0)
          ∧ ((f.cmp cc x y).1 = true ↔ (match cc with | 0 => same | 1 => ¬same | 2 => less x y | 3 => less x y ∨ same | 4 => less y x | 5 => less y x ∨ same | 6 => un = true | _ => un = false)))
      ∧ (∀ big, let r := f.minMax big x y
        (nan x = false → nan y = false → r.fl = 0 ∧ (r.v = x ∨ r.v = y) ∧ (less x y → r.v = if big then y else x) ∧ (less y x → r.v = if big then x else y) ∧ (same → f.neg x ≠ f.neg y → f.neg r.v = !big))
          ∧ (nan x = true → nan y = false → r = ⟨y, if signals [x] then f.inv else 0⟩) ∧ (nan x = false → nan y = true → r = ⟨x, if signals [y] then f.inv else 0⟩) ∧ (nan x = true → nan y = true → r = firstNan x (signals [x, y])))
      ∧ (∀ n, n = 32 ∨ n = 64 → let hi : Int := 2 ^ (n - 1) - 1
        let lo : Int := -(2 ^ (n - 1))
        (nan x = true → f.toInt n x = (0, f.inv)) ∧ (∀ s, f.num x = .inf s → f.toInt n x = (if s then lo else hi, f.inv))
          ∧ (fin x = true → ∃ k : Int, ((k : Rat) - val x).abs ≤ 1 / 2 ∧ (((k : Rat) - val x).abs = 1 / 2 → k % 2 = 0) ∧ f.toInt n x = if k < lo then (lo, f.inv) else if hi < k then (hi, f.inv) else (k, 0)))
      ∧ (∀ v : Int, (v ≠ 0 → f.rounds v (f.ofInt v)) ∧ (v = 0 → f.ofInt v = zero false))
      ∧ (∀ g : Fmt, g = fmt32 ∨ g = fmt64 → let r := cvtFmt f g x
        (fin x = true → val x ≠ 0 → g.rounds (val x) r) ∧ (fin x = true → val x = 0 → r = ⟨g.signed (f.neg x) 0, 0⟩) ∧ (∀ s, f.num x = .inf s → r = ⟨g.signed s g.infBits, 0⟩)
          ∧ (∀ s, f.num x = .nan s → g.num r.v = .nan false ∧ g.neg r.v = f.neg x ∧ r.fl = if s then g.inv else 0))
      ∧ (nan x = true → f.exp x = firstNan x (signals [x]) ∧ f.log x = firstNan x (signals [x])) ∧ (f.num x = .inf false → f.exp x = infinity false ∧ f.log x = infinity false)
      ∧ (f.num x = .inf true → f.exp x = zero false ∧ f.log x = invalid)
      ∧ (fin x = true → (val x = 0 → f.exp x = ⟨f.bias * 2 ^ f.frac, 0⟩ ∧ f.log x = ⟨f.signed true f.infBits, f.dz⟩) ∧ (val x < 0 → f.log x = invalid) ∧ (val x = 1 → f.log x = zero false))

/-- K16 and K12: what an encoding stands for; conversions follow the table of R92, with the exact scaled value; K16 lanes apply it to the exact result, with the cases of R93; widening rounds into the wider format; a long-sum fold returns an exact sum, and else rounds up when the generator's value lies below the excess over the truncated magnitude; a generator never comes to 0, and no two states have one successor (R75 to R77, R82, R92, R93, R105 to R107, R109). -/
def Obligations.ShortFormatsAndFold : Prop :=
  (∀ (frac x : Nat), frac = 10 ∨ frac = 6 → x < 2 ^ (frac + 6) → let ex := x / 2 ^ frac % 32
    let m := x % 2 ^ frac
    (kNum frac x).isFin = true ∧ (kNum frac x).value = (if x.testBit (frac + 5) = true then -1 else 1) * (if ex = 0 then (m : Rat) * (2 : Rat) ^ (-14 - (frac : Int)) else ((2 ^ frac + m : Nat) : Rat) * (2 : Rat) ^ ((ex : Int) - 15 - frac)))
  ∧ (∀ (f : Fmt) (frac x : Nat) (se : Int), f = fmt32 ∨ f = fmt64 → frac = 10 ∨ frac = 6 → x < 2 * f.signBit →
    ((f.num x).isNan = true → f.toK frac se x = ⟨0, kInv⟩) ∧ (∀ s, f.num x = .inf s → f.toK frac se x = ⟨kSigned frac s (kMax frac), kOvf⟩)
      ∧ ((f.num x).isFin = true → ((f.num x).value = 0 → f.toK frac se x = ⟨kSigned frac (f.neg x) 0, 0⟩) ∧ ((f.num x).value ≠ 0 → kConverts frac ((f.num x).value * (2 : Rat) ^ (-se)) (f.toK frac se x))))
  ∧ (∀ (f : Fmt) (k : Nat) (se : Int), f = fmt32 ∨ f = fmt64 → k < 2 ^ 16 → let v := (kNum 10 k).value
    (v = 0 → f.ofK se k = ⟨f.signed (k.testBit 15) 0, 0⟩) ∧ (v ≠ 0 → f.rounds (v * (2 : Rat) ^ se) (f.ofK se k)))
  ∧ (∀ x y z : Nat, x < 2 ^ 16 → y < 2 ^ 16 → z < 2 ^ 16 →
    let val := fun (a : Nat) => (kNum 10 a).value
    let neg := fun (a : Nat) => a.testBit 15
    let zero := fun (s : Bool) => (⟨kSigned 10 s 0, 0⟩ : FRes)
    let apart := neg x != neg y
    (let s := val x + val y; (s ≠ 0 → kConverts 10 s (kAdd x y)) ∧ (s = 0 → kAdd x y = zero (decide (val x = 0) && neg x && neg y)))
      ∧ (let s := val x - val y; (s ≠ 0 → kConverts 10 s (kSub x y)) ∧ (s = 0 → kSub x y = zero (decide (val x = 0) && neg x && !neg y)))
      ∧ (let s := val x * val y; (s ≠ 0 → kConverts 10 s (kMul x y)) ∧ (s = 0 → kMul x y = zero apart))
      ∧ (let s := val x * val y + val z; (s ≠ 0 → kConverts 10 s (kFma x y z)) ∧ (s = 0 → kFma x y z = zero (decide (val z = 0) && apart && neg z)))
      ∧ ((val x ≠ 0 → val y ≠ 0 → kConverts 10 (val x / val y) (kDiv x y)) ∧ (val x = 0 → val y ≠ 0 → kDiv x y = zero apart)
        ∧ (val x ≠ 0 → val y = 0 → kDiv x y = ⟨kSigned 10 apart 0x7FFF, kOvf⟩) ∧ (val x = 0 → val y = 0 → kDiv x y = ⟨0, kInv⟩))
      ∧ ((val x = 0 → kSqrt x = ⟨x, 0⟩) ∧ (val x < 0 → kSqrt x = ⟨0, kInv⟩)
        ∧ (0 < val x → let r := kSqrt x; r.fl = 0 ∧ r.v < 0x8000 ∧ nearestRoot (fun w => ∃ y, val y = w) (r.v % 2 = 0) (val r.v) (val x)))
      ∧ (∀ big, kMinMax big x y = ⟨if val x = val y then x else if (val x < val y) = (big = false) then x else y, 0⟩)
      ∧ ∀ cc, cc < 8 → (kCmp cc x y = true ↔ (match cc with | 0 => val x = val y | 1 => val x ≠ val y | 2 => val x < val y | 3 => val x ≤ val y | 4 => val y < val x | 5 => val y ≤ val x | 6 => False | _ => True)))
  ∧ (∀ m p r : Nat, m < 2 ^ 32 → p < 2 ^ 32 → r < 2 ^ 32 →
    let val := fun (a : Nat) => (fmt32.num a).value
    let s := val m + val p
    let w := foldAdd m p r
    let grows := fun (t u : Rat) => r < ((s.abs - t) / u * (2 : Rat) ^ (32 : Int)).floor.toNat
    ((fmt32.num m).isFin = false ∨ (fmt32.num p).isFin = false → w = fmt32.add m p)
      ∧ ((fmt32.num m).isFin = true → (fmt32.num p).isFin = true →
        (s = 0 → w = fmt32.add m p)
          ∧ (∀ y, (fmt32.num y).isFin = true → val y = s → s ≠ 0 → val w.v = s ∧ (fmt32.num w.v).isFin = true ∧ w.v < 2 ^ 32 ∧ w.fl = 0)
          ∧ ((2 : Rat) ^ (128 : Int) ≤ s.abs → w = ⟨fmt32.signed (decide (s < 0)) 0x7F800000, fmt32.ovf + fmt32.inx⟩)
          ∧ (∀ (n : Nat) (q : Int), s.abs < (2 : Rat) ^ (128 : Int) → -149 ≤ q → n < 2 ^ 24 → (q = -149 ∨ 2 ^ 23 ≤ n) →
              let t := (n : Rat) * (2 : Rat) ^ q
              let u := (2 : Rat) ^ q
              t < s.abs → s.abs < t + u → let x := if grows t u then t + u else t
              ((2 : Rat) ^ (128 : Int) ≤ x → w = ⟨fmt32.signed (decide (s < 0)) 0x7F800000, fmt32.ovf + fmt32.inx⟩)
                ∧ (x < (2 : Rat) ^ (128 : Int) → (fmt32.num w.v).isFin = true ∧ w.v < 2 ^ 32 ∧ (val w.v).abs = x ∧ fmt32.neg w.v = decide (s < 0)
                    ∧ w.fl = fmt32.inx + if x < (2 : Rat) ^ (-126 : Int) then fmt32.unf else 0))))
  ∧ (∀ x y : Nat, x < 2 ^ 32 → y < 2 ^ 32 → galois x = (if x % 2 = 1 then x / 2 ^^^ 0x80200003 else x / 2) ∧ galois x < 2 ^ 32 ∧ (x ≠ 0 → galois x ≠ 0) ∧ (galois x = galois y → x = y))

/-! ## What the resets leave -/

/-- The reset levels: a block reset of a core leaves it stopped and empty, its registers at reset, its core data memory, dirty cache lines and device memory as they were; of a stack controller, only the running descriptors, UPE_CTRL and registers that froze it; of a link port, its frames at reset and its messages on other ports; of a collective engine, its stages and frame; no reset makes an arrival, and what ends so has code ABANDONED; context reset adds its cores, objects and freeze; region reset everything of the region but catalogue, event hub and device memory, its enabled ports train again (log 35) and a fence is lifted; a quarantine fences the memory alone; a trip loses device memory and resets the module (R35, R312, R362, R366, R411, R412, R421, R438, R450, R497, R506, R507). -/
def Obligations.ResetScopes : Prop :=
  ∀ s : State,
    let atReset := fun (t : State) (f : FrameId) => ∀ o, t.reg f o = t.resetOf f o % 2 ^ 32 ∧ tget (t.frame f).flags o 0 = 0
    let coreReset := fun (t : State) (k : Nat) => t.stopped k = true ∧ (∀ f, f ∈ coreFrames k → atReset t f ∧ t.ownFrozen f = false)
      ∧ t.core k = { dmem := (s.core k).dmem, dpoison := (s.core k).dpoison, loan := (s.core k).loan } ∧ (t.cache k).lines = (s.cache k).lines
      ∧ (∀ a, a < 4 → t.arr k a = { cycle := (s.arr k a).cycle }) ∧ (t.ae k).writes = (s.ae k).writes.map (fun w => { w with desc := none, tile := none })
      ∧ (∀ w, w ∈ t.sync.waits → ownsWait k w.who = false) ∧ tget t.sync.ports k [] = []
    let objCleared := fun (t : State) (o : Nat) => t.obj o = {} ∧ ∀ e, e ∈ t.sync.timers → ∀ x, x ∈ e.2 → x.obj ≠ o
    let noLayers := fun (t : State) (e : Nat) => (∀ c, t.upeAt e c = none) ∧ ∀ w, w ∈ t.sync.waits → ∀ j c, w.who = .upe j c → j.val ≠ e
    let open_ := fun (e c a : Nat) => s.rangeLent c a 8 = true ∧ (s.region (regionOfPa a)).fenced = false ∧ s.stackHeld a = false ∧ a % 128 ≤ 120 ∧ a % 2 ^ 30 ≤ 2 ^ 30 - 8 ∧ e < 16
    (∀ k, let t := s.blockResetCore k
        coreReset t k ∧ t.mem = s.mem ∧ t.memPoison = s.memPoison ∧ t.sync.objs = s.sync.objs ∧ t.sync.timers = s.sync.timers ∧ t.cat = s.cat ∧ t.ev = s.ev ∧ ∀ j, j ≠ k → t.core j = s.core j ∧ t.ae j = s.ae j ∧ t.cache j = s.cache j)
      ∧ (∀ d j, j < 2 → let t := s.blockResetStack d j
        noLayers t (2 * d + j) ∧ t.mem = s.mem ∧ t.memPoison = s.memPoison ∧ t.cores = s.cores ∧ t.sync.objs = s.sync.objs ∧ t.cat = s.cat ∧ t.ev = s.ev
          ∧ (∀ f, f = .stk d j ∨ f = .upe d j → t.ownFrozen f = false ∧ (∀ o, tget (t.frame f).flags o 0 = tget (s.frame f).flags o 0)
            ∧ ∀ o, t.reg f o = if f = .upe d j ∧ o = 0 then 0 else if s.ownFrozen f = true ∧ o ∈ (s.frame f).failed then s.resetOf f o % 2 ^ 32 else s.reg f o)
          ∧ (∀ f, f ≠ .stk d j → f ≠ .upe d j → t.frame f = s.frame f) ∧ ∀ e c, e ≠ 2 * d + j → t.upeAt e c = s.upeAt e c)
      ∧ (∀ p, p < 12 → let t := s.blockResetPort p
        t.lport p = {} ∧ (∀ f, f ∈ portFrames p → atReset t f) ∧ t.mem = s.mem ∧ t.cores = s.cores ∧ t.sync = s.sync ∧ t.cat = s.cat
          ∧ ∀ q, q ≠ p → (t.lport q).tx = (s.lport q).tx ++ (s.lport p).tx.filter (fun m => ((s.upPorts m.mask).filter (· != p)).head? == some q))
      ∧ (∀ d : Fin 8, let t := s.blockResetCe d
        atReset t (.ce d) ∧ (∀ c, c < 64 → t.stagesOf d c = []) ∧ (∀ c, tget t.links.ceGens (d.val, c) [] = []) ∧ (∀ w, w ∈ t.sync.waits → ∀ c, w.who ≠ .ce d c)
          ∧ t.cores = s.cores ∧ t.sync.objs = s.sync.objs ∧ t.cat = s.cat ∧ t.upes = s.upes ∧ ((∀ c, c < 64 → s.stagesOf d c = []) → t.mem = s.mem ∧ t.memPoison = s.memPoison))
      ∧ (∀ (e : Fin 16) (c : Fin 64) (r : UpeRun), s.upeAt e c = some r → open_ e c (r.addr + 0x78) → let t := s.upeAbandon e c
        t.upeAt e c = none ∧ t.sync.objs = s.sync.objs ∧ t.cores = s.cores ∧ memBytes t.mem (r.addr + 0x78) 8 = u64 (15 + r.flags % 8192 * 256 + r.done % 2 ^ 32 * 2 ^ 32)
          ∧ (∀ a, a < r.addr + 0x78 ∨ r.addr + 0x80 ≤ a → memGet t.mem a = memGet s.mem a) ∧ ∀ o, t.reg (upeFrame e) o = s.reg (upeFrame e) o)
      ∧ (∀ (d : Fin 8) (c : Fin 64) (g : Stage), s.stagesOf d c = [g] → open_ 0 c (g.addr + 0x38) → let t := s.stagesAbandon d c
        t.stagesOf d c = [] ∧ t.sync.objs = s.sync.objs ∧ t.cores = s.cores ∧ memBytes t.mem (g.addr + 0x38) 8 = u64 (15 + g.flags % 8192 * 256)
          ∧ ∀ a, a < g.addr + 0x38 ∨ g.addr + 0x40 ≤ a → memGet t.mem a = memGet s.mem a)
      ∧ (∀ c : Fin 64, let t := s.contextReset c
        (∀ k, k ∈ s.coresLent c → coreReset t k) ∧ (∀ p, p ∈ s.rangesLent c → ∀ o, o / 64 = p → objCleared t o) ∧ (∀ e, e < 16 → t.upeAt e c = none) ∧ (∀ d, d < 8 → t.stagesOf d c = [])
          ∧ c.val ∉ t.sync.frozen ∧ t.cat = s.cat ∧ (∀ e x, x ≠ c.val → t.upeAt e x = s.upeAt e x) ∧ (∀ d x, x ≠ c.val → t.stagesOf d x = s.stagesOf d x)
          ∧ (∀ k, k ∉ s.coresLent c → t.core k = s.core k) ∧ (∀ o, o / 64 ∉ s.rangesLent c → t.obj o = s.obj o) ∧ (∀ x, x ≠ c.val → (x ∈ t.sync.frozen ↔ x ∈ s.sync.frozen))
          ∧ ((∀ e, e < 16 → s.upeAt e c = none) → (∀ d, d < 8 → s.stagesOf d c = []) → t.mem = s.mem ∧ t.memPoison = s.memPoison))
      ∧ (∀ d, d < 8 → let t := s.regionReset d
        (∀ k, k / 16 = d → coreReset t k) ∧ (∀ f, f ∈ [FrameId.stk d 0, .stk d 1, .upe d 0, .upe d 1, .evt d, .sync d, .ce d] → atReset t f ∧ t.ownFrozen f = false)
          ∧ (∀ f, f ∈ [FrameId.rctl d, .rpwr d, .csv d, .csvCal d, .ptb d] → t.ownFrozen f = false ∧ ∀ o, t.reg f o = if s.ownFrozen f = true ∧ o ∈ (s.frame f).failed then s.resetOf f o % 2 ^ 32 else s.reg f o)
          ∧ (∀ i p, portAt d i = some p → t.lport p = {} ∧ (∀ f, f ∈ portFrames p → ∀ o, tget (t.frame f).flags o 0 = 0 ∧ t.reg f o = if f = .port p ∧ o = 0 ∧ (s.reg (.port p) 0).testBit 0 = true then 1 else t.resetOf f o % 2 ^ 32))
          ∧ noLayers t (2 * d) ∧ noLayers t (2 * d + 1) ∧ (∀ c, c < 64 → t.stagesOf d c = []) ∧ (∀ o, o / 4096 = d → t.obj o = {}) ∧ tget t.sync.timers d [] = [] ∧ (∀ w, w ∈ t.sync.waits → waiterRegion w.who ≠ d)
          ∧ (t.region d).fenced = false ∧ (t.region d).clockLost = false ∧ t.cat = s.cat ∧ t.pm = s.pm ∧ t.srm = s.srm ∧ t.host.dockets = s.host.dockets ∧ t.host.replies = s.host.replies ∧ t.pwr = s.pwr
          ∧ (∀ k, k / 16 ≠ d → t.core k = s.core k ∧ t.ae k = s.ae k ∧ t.cache k = s.cache k) ∧ (∀ f, hopOf f ≠ d → f ≠ .revt → t.frame f = s.frame f) ∧ (∀ q, q ≠ d → t.region q = s.region q)
          ∧ ((∀ c, c < 64 → s.stagesOf d c = []) → t.mem = s.mem ∧ t.memPoison = s.memPoison ∧ t.ev = s.ev))
      ∧ (∀ d cause, let t := s.quarantine d cause
        ((s.region d).fenced = true → t = s) ∧ (t.region d).fenced = true ∧ t.mem = s.mem ∧ t.memPoison = s.memPoison ∧ t.cores = s.cores ∧ t.sync = s.sync ∧ t.cat = s.cat ∧ (∀ f, f ≠ .revt → t.frame f = s.frame f)
          ∧ (∀ pa n, regionOfPa pa = d → (t.readPiece pa n).poison = true ∧ (t.readPiece pa n).hit = some pa) ∧ ∀ w, regionOfPa w.pa = d → t.writePart w = t)
      ∧ ∀ row value, let t := s.trip row value
        t.mem = [] ∧ t.memPoison = [] ∧ t.cores = [] ∧ t.sync = {} ∧ t.upes = [] ∧ t.pwr.rails = false ∧ t.pwr.ready = false ∧ t.pwr.resetting = false ∧ t.pwr.moant = s.pwr.moant ∧ t.host.linkUp = s.host.linkUp
          ∧ t.pwr.trip = some (row, value, s.pwr.sampled) ∧ t.srm.trips = lastOf 256 (s.srm.trips ++ [⟨row, value, s.opMinutes⟩]) ∧ ∀ f, f ≠ .revt → atReset t f

/-! ## The whole machine -/

/-- The state after reset: no command waits, every register at its reset value and every flag clear, every core stopped with empty stacks and cleared predicates, every sync object 0, the postmark 0, memories in canonical form; that it stands at MODULE_READY, with that record waiting at the root, is the model's choice (log 20). -/
def Obligations.ResetState : Prop :=
  let s := State.reset
  s.pending = [] ∧ s.memoryWf ∧ (∀ f o, s.reg f o = regReset f o % 2 ^ 32 ∧ tget (s.frame f).flags o 0 = 0 ∧ (s.frame f).accession = 0)
    ∧ (∀ k, k < 128 → s.stopped k = true ∧ (s.core k).istk = [] ∧ (s.core k).vstk = [] ∧ s.preds k = 1 ∧ s.vlen k = 512 ∧ (s.core k).dmem = [] ∧ s.coreCtx k = none)
    ∧ (∀ o, (s.obj o).counter = 0 ∧ (s.obj o).target = 0) ∧ (∀ d, s.copyOf d = 0) ∧ s.pwr.ready = true ∧ tget s.ev.root 8 [] = [readyRecord] ∧ ∀ g, s.granuleLent g 0 = true

/-- Every step keeps device memory and every core data memory in their canonical form: addresses rising, no byte listed that an unlisted address reads as. -/
def Obligations.StepKeepsMemory : Prop :=
  ∀ (s t : State), s.memoryWf → step s = .next t → t.memoryWf

/-- With no command waiting a step is one tick of the postmark domain: the master counts on by 1 unless a slew is due, and the queue stays empty; while the module is in reset nothing happens. What a step does then is the model's choice (log 2). -/
def Obligations.IdleTick : Prop :=
  ∀ (s : State), s.pending = [] → ∃ t, step s = .next t ∧ t.pending = [] ∧ t.mem = s.mem ∧ (∀ k, (t.core k) = s.core k)
    ∧ (s.pwr.ready = false → t = s) ∧ (s.pwr.ready = true → s.pm.slew = 0 → t.pm.master = s.pm.master + 1)
    ∧ (s.pwr.ready = true → 0 < s.pm.slew → 9999 ≤ s.pm.slewAt → t.pm.master = s.pm.master ∧ t.pm.slew = s.pm.slew - 1) ∧ ∀ d, d < 8 → s.pwr.ready = true → s.pm.master.toNat < 2 ^ 63 → s.copyOf d ≤ t.copyOf d
end

