-- ==== Sys2Proof/Laws/Table.lean ====
section
/-! SUPPORT. Laws of sparse tables and of byte memories: reading after writing, and the canonical form that every memory operation keeps. -/
namespace Sys2Proof.Machine

/-! ## Tables -/

/-- Reading the key just stored gives what was stored. -/
@[simp] theorem tget_tset_self {κ α : Type} [DecidableEq κ] (t : Tbl κ α) (k : κ) (v d : α) : tget (tset t k v) k d = v := by
  induction t with
  | nil => simp [tset, tget]
  | cons e r ih => by_cases h : e.1 = k <;> simp [tset, tget, h, ih]

/-- Storing under one key leaves every other key. -/
theorem tget_tset_ne {κ α : Type} [DecidableEq κ] (t : Tbl κ α) (k k' : κ) (v d : α) (h : k' ≠ k) :
    tget (tset t k v) k' d = tget t k' d := by
  induction t with
  | nil => simp [tset, tget, h.symm]
  | cons e r ih =>
    obtain ⟨k0, v0⟩ := e
    by_cases h1 : k0 = k
    · subst h1; simp [tset, tget, h.symm]
    · by_cases h2 : k0 = k'
      · subst h2; simp [tset, tget, h1]
      · simp [tset, tget, h1, h2, ih]

/-- The second of two stores under one key is what stays. -/
@[simp] theorem tset_tset_self {κ α : Type} [DecidableEq κ] (t : Tbl κ α) (k : κ) (v w : α) : tset (tset t k v) k w = tset t k w := by
  induction t with
  | nil => simp [tset]
  | cons e r ih => by_cases h : e.1 = k <;> simp [tset, h, ih]

/-- Storing what a table already holds under a present key changes nothing. -/
theorem tset_tget_self {κ α : Type} [DecidableEq κ] (t : Tbl κ α) (k : κ) (d : α) (h : t.any (fun e => decide (e.1 = k)) = true) :
    tset t k (tget t k d) = t := by
  induction t with
  | nil => simp at h
  | cons e r ih =>
    obtain ⟨k', v⟩ := e
    by_cases h1 : k' = k
    · subst h1; simp [tset, tget]
    · simp [h1] at h; simp [tset, tget, h1]; exact ih (by simpa using h)

/-! ## Memories -/

/-- A canonical memory above a higher bound is canonical above a lower one. -/
theorem wfFrom_mono {m : Memory} {a b : Nat} (h : a ≤ b) : Memory.wfFrom b m = true → Memory.wfFrom a m = true := by
  cases m with
  | nil => intro _; rfl
  | cons e r => simp only [Memory.wfFrom, Bool.and_eq_true, decide_eq_true_eq]; rintro ⟨⟨h1, h2⟩, h3⟩; exact ⟨⟨by omega, h2⟩, h3⟩

/-- Removing an address keeps the canonical form. -/
theorem wfFrom_erase (m : Memory) (lo a : Nat) : Memory.wfFrom lo m = true → Memory.wfFrom lo (memErase m a) = true := by
  induction m generalizing lo with
  | nil => simp [memErase]
  | cons e r ih =>
    simp only [Memory.wfFrom, Bool.and_eq_true, decide_eq_true_eq, memErase]
    rintro ⟨⟨h1, h2⟩, h3⟩
    split
    · exact wfFrom_mono (by omega) h3
    · split
      · simp [Memory.wfFrom, h1, h2, h3]
      · simp [Memory.wfFrom, h1, h2, ih (e.1 + 1) h3]

/-- Inserting a listed byte keeps the canonical form. -/
theorem wfFrom_insert (m : Memory) (lo a : Nat) (v : Byte) (hv : v ≠ unlistedByte) (hlo : lo ≤ a) :
    Memory.wfFrom lo m = true → Memory.wfFrom lo (memInsert m a v) = true := by
  induction m generalizing lo with
  | nil => simp [memInsert, Memory.wfFrom, hv, hlo]
  | cons e r ih =>
    simp only [Memory.wfFrom, Bool.and_eq_true, decide_eq_true_eq, memInsert]
    rintro ⟨⟨h1, h2⟩, h3⟩
    split
    · rename_i h; subst h; simp [Memory.wfFrom, hv, h1, h3]
    · split
      · rename_i h4
        simp only [Memory.wfFrom, Bool.and_eq_true, decide_eq_true_eq]
        exact ⟨⟨hlo, hv⟩, ⟨by omega, h2⟩, h3⟩
      · rename_i h4 h5
        simp only [Memory.wfFrom, Bool.and_eq_true, decide_eq_true_eq]
        exact ⟨⟨h1, h2⟩, ih (e.1 + 1) (by omega) h3⟩

/-- Writing a byte keeps the canonical form. -/
theorem memSet_wf (m : Memory) (a : Nat) (v : Byte) (h : Memory.wf m = true) : Memory.wf (memSet m a v) = true := by
  unfold memSet Memory.wf
  split
  · exact wfFrom_erase m 0 a h
  · rename_i hv; exact wfFrom_insert m 0 a v hv (Nat.zero_le a) h

/-- Writing a list of bytes keeps the canonical form. -/
theorem memPut_wf (m : Memory) (a : Nat) (bs : List Byte) (h : Memory.wf m = true) : Memory.wf (memPut m a bs) = true := by
  induction bs generalizing m a with
  | nil => exact h
  | cons b r ih => exact ih (memSet m a b) (a + 1) (memSet_wf m a b h)

/-- Storing a number keeps the canonical form. -/
theorem memStore_wf (m : Memory) (a n v : Nat) (h : Memory.wf m = true) : Memory.wf (memStore m a n v) = true := memPut_wf m a (leBytes n v) h

/-- Dropping cells keeps the canonical form. -/
theorem wfFrom_filter (m : Memory) (p : Host.Cell → Bool) (lo : Nat) : Memory.wfFrom lo m = true → Memory.wfFrom lo (m.filter p) = true := by
  induction m generalizing lo with
  | nil => simp
  | cons e r ih =>
    simp only [Memory.wfFrom, Bool.and_eq_true, decide_eq_true_eq, List.filter_cons]
    rintro ⟨⟨h1, h2⟩, h3⟩
    split
    · simp [Memory.wfFrom, h1, h2, ih (e.1 + 1) h3]
    · exact wfFrom_mono (by omega) (ih (e.1 + 1) h3)

/-- Zeroing a range keeps the canonical form. -/
theorem memClear_wf (m : Memory) (a n : Nat) (h : Memory.wf m = true) : Memory.wf (memClear m a n) = true :=
  wfFrom_filter m _ 0 h

/-! ## Reading after writing -/

/-- Below its first listed address a canonical memory reads as unlisted. -/
theorem memGet_below (m : Memory) (lo a : Nat) (h : Memory.wfFrom lo m = true) (ha : a < lo) : memGet m a = unlistedByte := by
  induction m generalizing lo with
  | nil => rfl
  | cons e r ih =>
    simp only [Memory.wfFrom, Bool.and_eq_true, decide_eq_true_eq] at h
    have h1 : ¬ e.1 = a := by omega
    simp only [memGet, h1, if_false]
    exact ih (e.1 + 1) h.2 (by omega)

/-- An erased address reads as unlisted. -/
theorem memGet_erase_self (m : Memory) (lo a : Nat) (h : Memory.wfFrom lo m = true) : memGet (memErase m a) a = unlistedByte := by
  induction m generalizing lo with
  | nil => rfl
  | cons e r ih =>
    simp only [Memory.wfFrom, Bool.and_eq_true, decide_eq_true_eq] at h
    simp only [memErase]
    split
    · rename_i h1; exact memGet_below r (e.1 + 1) a h.2 (by omega)
    · rename_i h1
      split
      · rename_i h2; simp only [memGet, h1, if_false]; exact memGet_below r (e.1 + 1) a h.2 (by omega)
      · simp only [memGet, h1, if_false]; exact ih (e.1 + 1) h.2

/-- Erasing one address leaves every other. -/
theorem memGet_erase_ne (m : Memory) (a b : Nat) (h : b ≠ a) : memGet (memErase m a) b = memGet m b := by
  induction m with
  | nil => rfl
  | cons e r ih =>
    simp only [memErase]
    split
    · rename_i h1
      have h2 : ¬ e.1 = b := by omega
      simp [memGet, h2]
    · split
      · rfl
      · by_cases h2 : e.1 = b <;> simp [memGet, h2, ih]

/-- An inserted address reads as what was inserted. -/
theorem memGet_insert_self (m : Memory) (a : Nat) (v : Byte) : memGet (memInsert m a v) a = v := by
  induction m with
  | nil => simp [memInsert, memGet]
  | cons e r ih =>
    simp only [memInsert]
    split
    · simp [memGet]
    · rename_i h1
      split
      · simp [memGet]
      · simp [memGet, h1, ih]

/-- Inserting at one address leaves every other. -/
theorem memGet_insert_ne (m : Memory) (a b : Nat) (v : Byte) (h : b ≠ a) : memGet (memInsert m a v) b = memGet m b := by
  induction m with
  | nil => simp [memInsert, memGet, h.symm]
  | cons e r ih =>
    simp only [memInsert]
    split
    · rename_i h1
      have h2 : ¬ e.1 = b := by omega
      simp [memGet, h.symm, h2]
    · split
      · simp [memGet, h.symm]
      · by_cases h2 : e.1 = b <;> simp [memGet, h2, ih]

/-- READ AFTER WRITE: the byte just written. -/
theorem memGet_memSet_self (m : Memory) (a : Nat) (v : Byte) (h : Memory.wf m = true) : memGet (memSet m a v) a = v := by
  unfold memSet
  split
  · rename_i hv; rw [memGet_erase_self m 0 a h, hv]
  · exact memGet_insert_self m a v

/-- A write leaves every other byte. -/
theorem memGet_memSet_ne (m : Memory) (a b : Nat) (v : Byte) (h : b ≠ a) : memGet (memSet m a v) b = memGet m b := by
  unfold memSet
  split
  · exact memGet_erase_ne m a b h
  · exact memGet_insert_ne m a b v h

/-- A write of several bytes leaves every byte outside them. -/
theorem memGet_memPut_outside (m : Memory) (a b : Nat) (bs : List Byte) (h : b < a ∨ a + bs.length ≤ b) :
    memGet (memPut m a bs) b = memGet m b := by
  induction bs generalizing m a with
  | nil => rfl
  | cons x r ih =>
    simp only [memPut]
    simp only [List.length_cons] at h
    rw [ih (memSet m a x) (a + 1) (by omega), memGet_memSet_ne m a b x (by omega)]

/-- A write of several bytes is read back byte by byte. -/
theorem memGet_memPut_inside (m : Memory) (a i : Nat) (bs : List Byte) (h : Memory.wf m = true) (hi : i < bs.length) :
    memGet (memPut m a bs) (a + i) = bs[i] := by
  induction bs generalizing m a i with
  | nil => simp at hi
  | cons x r ih =>
    cases i with
    | zero =>
      simp only [memPut, Nat.add_zero, List.getElem_cons_zero]
      rw [memGet_memPut_outside (memSet m a x) (a + 1) a r (by omega), memGet_memSet_self m a x h]
    | succ n =>
      simp only [memPut, List.getElem_cons_succ]
      have hn : n < r.length := by simpa using hi
      have := ih (memSet m a x) (a + 1) n (memSet_wf m a x h) hn
      rw [show a + (n + 1) = a + 1 + n by omega]
      exact this

end Sys2Proof.Machine
end

