-- ==== Sys2Proof/Laws/State.lean ====
section
/-! SUPPORT. One lemma per field of State and per update of it: what the update leaves. Reading back what an update stored. -/
namespace Sys2Proof.Machine

/-! ### setFrame -/
@[simp] theorem State.setFrame_pending (s : State) (f : FrameId) (fr : Frame) : (s.setFrame f fr).pending = s.pending := rfl
@[simp] theorem State.setFrame_freeCtr (s : State) (f : FrameId) (fr : Frame) : (s.setFrame f fr).freeCtr = s.freeCtr := rfl
@[simp] theorem State.setFrame_cores (s : State) (f : FrameId) (fr : Frame) : (s.setFrame f fr).cores = s.cores := rfl
@[simp] theorem State.setFrame_arrays (s : State) (f : FrameId) (fr : Frame) : (s.setFrame f fr).arrays = s.arrays := rfl
@[simp] theorem State.setFrame_aes (s : State) (f : FrameId) (fr : Frame) : (s.setFrame f fr).aes = s.aes := rfl
@[simp] theorem State.setFrame_caches (s : State) (f : FrameId) (fr : Frame) : (s.setFrame f fr).caches = s.caches := rfl
@[simp] theorem State.setFrame_mem (s : State) (f : FrameId) (fr : Frame) : (s.setFrame f fr).mem = s.mem := rfl
@[simp] theorem State.setFrame_memPoison (s : State) (f : FrameId) (fr : Frame) : (s.setFrame f fr).memPoison = s.memPoison := rfl
@[simp] theorem State.setFrame_active (s : State) (f : FrameId) (fr : Frame) : (s.setFrame f fr).active = s.active := rfl
@[simp] theorem State.setFrame_pm (s : State) (f : FrameId) (fr : Frame) : (s.setFrame f fr).pm = s.pm := rfl
@[simp] theorem State.setFrame_cat (s : State) (f : FrameId) (fr : Frame) : (s.setFrame f fr).cat = s.cat := rfl
@[simp] theorem State.setFrame_regions (s : State) (f : FrameId) (fr : Frame) : (s.setFrame f fr).regions = s.regions := rfl
@[simp] theorem State.setFrame_ev (s : State) (f : FrameId) (fr : Frame) : (s.setFrame f fr).ev = s.ev := rfl
@[simp] theorem State.setFrame_sync (s : State) (f : FrameId) (fr : Frame) : (s.setFrame f fr).sync = s.sync := rfl
@[simp] theorem State.setFrame_upes (s : State) (f : FrameId) (fr : Frame) : (s.setFrame f fr).upes = s.upes := rfl
@[simp] theorem State.setFrame_turns (s : State) (f : FrameId) (fr : Frame) : (s.setFrame f fr).turns = s.turns := rfl
@[simp] theorem State.setFrame_links (s : State) (f : FrameId) (fr : Frame) : (s.setFrame f fr).links = s.links := rfl
@[simp] theorem State.setFrame_host (s : State) (f : FrameId) (fr : Frame) : (s.setFrame f fr).host = s.host := rfl
@[simp] theorem State.setFrame_srm (s : State) (f : FrameId) (fr : Frame) : (s.setFrame f fr).srm = s.srm := rfl
@[simp] theorem State.setFrame_csvs (s : State) (f : FrameId) (fr : Frame) : (s.setFrame f fr).csvs = s.csvs := rfl
@[simp] theorem State.setFrame_pwr (s : State) (f : FrameId) (fr : Frame) : (s.setFrame f fr).pwr = s.pwr := rfl
@[simp] theorem State.setFrame_out (s : State) (f : FrameId) (fr : Frame) : (s.setFrame f fr).out = s.out := rfl

/-! ### modFrame -/
@[simp] theorem State.modFrame_pending (s : State) (f : FrameId) (g : Frame → Frame) : (s.modFrame f g).pending = s.pending := rfl
@[simp] theorem State.modFrame_freeCtr (s : State) (f : FrameId) (g : Frame → Frame) : (s.modFrame f g).freeCtr = s.freeCtr := rfl
@[simp] theorem State.modFrame_cores (s : State) (f : FrameId) (g : Frame → Frame) : (s.modFrame f g).cores = s.cores := rfl
@[simp] theorem State.modFrame_arrays (s : State) (f : FrameId) (g : Frame → Frame) : (s.modFrame f g).arrays = s.arrays := rfl
@[simp] theorem State.modFrame_aes (s : State) (f : FrameId) (g : Frame → Frame) : (s.modFrame f g).aes = s.aes := rfl
@[simp] theorem State.modFrame_caches (s : State) (f : FrameId) (g : Frame → Frame) : (s.modFrame f g).caches = s.caches := rfl
@[simp] theorem State.modFrame_mem (s : State) (f : FrameId) (g : Frame → Frame) : (s.modFrame f g).mem = s.mem := rfl
@[simp] theorem State.modFrame_memPoison (s : State) (f : FrameId) (g : Frame → Frame) : (s.modFrame f g).memPoison = s.memPoison := rfl
@[simp] theorem State.modFrame_active (s : State) (f : FrameId) (g : Frame → Frame) : (s.modFrame f g).active = s.active := rfl
@[simp] theorem State.modFrame_pm (s : State) (f : FrameId) (g : Frame → Frame) : (s.modFrame f g).pm = s.pm := rfl
@[simp] theorem State.modFrame_cat (s : State) (f : FrameId) (g : Frame → Frame) : (s.modFrame f g).cat = s.cat := rfl
@[simp] theorem State.modFrame_regions (s : State) (f : FrameId) (g : Frame → Frame) : (s.modFrame f g).regions = s.regions := rfl
@[simp] theorem State.modFrame_ev (s : State) (f : FrameId) (g : Frame → Frame) : (s.modFrame f g).ev = s.ev := rfl
@[simp] theorem State.modFrame_sync (s : State) (f : FrameId) (g : Frame → Frame) : (s.modFrame f g).sync = s.sync := rfl
@[simp] theorem State.modFrame_upes (s : State) (f : FrameId) (g : Frame → Frame) : (s.modFrame f g).upes = s.upes := rfl
@[simp] theorem State.modFrame_turns (s : State) (f : FrameId) (g : Frame → Frame) : (s.modFrame f g).turns = s.turns := rfl
@[simp] theorem State.modFrame_links (s : State) (f : FrameId) (g : Frame → Frame) : (s.modFrame f g).links = s.links := rfl
@[simp] theorem State.modFrame_host (s : State) (f : FrameId) (g : Frame → Frame) : (s.modFrame f g).host = s.host := rfl
@[simp] theorem State.modFrame_srm (s : State) (f : FrameId) (g : Frame → Frame) : (s.modFrame f g).srm = s.srm := rfl
@[simp] theorem State.modFrame_csvs (s : State) (f : FrameId) (g : Frame → Frame) : (s.modFrame f g).csvs = s.csvs := rfl
@[simp] theorem State.modFrame_pwr (s : State) (f : FrameId) (g : Frame → Frame) : (s.modFrame f g).pwr = s.pwr := rfl
@[simp] theorem State.modFrame_out (s : State) (f : FrameId) (g : Frame → Frame) : (s.modFrame f g).out = s.out := rfl

/-! ### setReg -/
@[simp] theorem State.setReg_pending (s : State) (f : FrameId) (off v : Nat) : (s.setReg f off v).pending = s.pending := rfl
@[simp] theorem State.setReg_freeCtr (s : State) (f : FrameId) (off v : Nat) : (s.setReg f off v).freeCtr = s.freeCtr := rfl
@[simp] theorem State.setReg_cores (s : State) (f : FrameId) (off v : Nat) : (s.setReg f off v).cores = s.cores := rfl
@[simp] theorem State.setReg_arrays (s : State) (f : FrameId) (off v : Nat) : (s.setReg f off v).arrays = s.arrays := rfl
@[simp] theorem State.setReg_aes (s : State) (f : FrameId) (off v : Nat) : (s.setReg f off v).aes = s.aes := rfl
@[simp] theorem State.setReg_caches (s : State) (f : FrameId) (off v : Nat) : (s.setReg f off v).caches = s.caches := rfl
@[simp] theorem State.setReg_mem (s : State) (f : FrameId) (off v : Nat) : (s.setReg f off v).mem = s.mem := rfl
@[simp] theorem State.setReg_memPoison (s : State) (f : FrameId) (off v : Nat) : (s.setReg f off v).memPoison = s.memPoison := rfl
@[simp] theorem State.setReg_active (s : State) (f : FrameId) (off v : Nat) : (s.setReg f off v).active = s.active := rfl
@[simp] theorem State.setReg_pm (s : State) (f : FrameId) (off v : Nat) : (s.setReg f off v).pm = s.pm := rfl
@[simp] theorem State.setReg_cat (s : State) (f : FrameId) (off v : Nat) : (s.setReg f off v).cat = s.cat := rfl
@[simp] theorem State.setReg_regions (s : State) (f : FrameId) (off v : Nat) : (s.setReg f off v).regions = s.regions := rfl
@[simp] theorem State.setReg_ev (s : State) (f : FrameId) (off v : Nat) : (s.setReg f off v).ev = s.ev := rfl
@[simp] theorem State.setReg_sync (s : State) (f : FrameId) (off v : Nat) : (s.setReg f off v).sync = s.sync := rfl
@[simp] theorem State.setReg_upes (s : State) (f : FrameId) (off v : Nat) : (s.setReg f off v).upes = s.upes := rfl
@[simp] theorem State.setReg_turns (s : State) (f : FrameId) (off v : Nat) : (s.setReg f off v).turns = s.turns := rfl
@[simp] theorem State.setReg_links (s : State) (f : FrameId) (off v : Nat) : (s.setReg f off v).links = s.links := rfl
@[simp] theorem State.setReg_host (s : State) (f : FrameId) (off v : Nat) : (s.setReg f off v).host = s.host := rfl
@[simp] theorem State.setReg_srm (s : State) (f : FrameId) (off v : Nat) : (s.setReg f off v).srm = s.srm := rfl
@[simp] theorem State.setReg_csvs (s : State) (f : FrameId) (off v : Nat) : (s.setReg f off v).csvs = s.csvs := rfl
@[simp] theorem State.setReg_pwr (s : State) (f : FrameId) (off v : Nat) : (s.setReg f off v).pwr = s.pwr := rfl
@[simp] theorem State.setReg_out (s : State) (f : FrameId) (off v : Nat) : (s.setReg f off v).out = s.out := rfl

/-! ### resetFrame -/
@[simp] theorem State.resetFrame_pending (s : State) (f : FrameId) : (s.resetFrame f).pending = s.pending := rfl
@[simp] theorem State.resetFrame_freeCtr (s : State) (f : FrameId) : (s.resetFrame f).freeCtr = s.freeCtr := rfl
@[simp] theorem State.resetFrame_cores (s : State) (f : FrameId) : (s.resetFrame f).cores = s.cores := rfl
@[simp] theorem State.resetFrame_arrays (s : State) (f : FrameId) : (s.resetFrame f).arrays = s.arrays := rfl
@[simp] theorem State.resetFrame_aes (s : State) (f : FrameId) : (s.resetFrame f).aes = s.aes := rfl
@[simp] theorem State.resetFrame_caches (s : State) (f : FrameId) : (s.resetFrame f).caches = s.caches := rfl
@[simp] theorem State.resetFrame_mem (s : State) (f : FrameId) : (s.resetFrame f).mem = s.mem := rfl
@[simp] theorem State.resetFrame_memPoison (s : State) (f : FrameId) : (s.resetFrame f).memPoison = s.memPoison := rfl
@[simp] theorem State.resetFrame_active (s : State) (f : FrameId) : (s.resetFrame f).active = s.active := rfl
@[simp] theorem State.resetFrame_pm (s : State) (f : FrameId) : (s.resetFrame f).pm = s.pm := rfl
@[simp] theorem State.resetFrame_cat (s : State) (f : FrameId) : (s.resetFrame f).cat = s.cat := rfl
@[simp] theorem State.resetFrame_regions (s : State) (f : FrameId) : (s.resetFrame f).regions = s.regions := rfl
@[simp] theorem State.resetFrame_ev (s : State) (f : FrameId) : (s.resetFrame f).ev = s.ev := rfl
@[simp] theorem State.resetFrame_sync (s : State) (f : FrameId) : (s.resetFrame f).sync = s.sync := rfl
@[simp] theorem State.resetFrame_upes (s : State) (f : FrameId) : (s.resetFrame f).upes = s.upes := rfl
@[simp] theorem State.resetFrame_turns (s : State) (f : FrameId) : (s.resetFrame f).turns = s.turns := rfl
@[simp] theorem State.resetFrame_links (s : State) (f : FrameId) : (s.resetFrame f).links = s.links := rfl
@[simp] theorem State.resetFrame_host (s : State) (f : FrameId) : (s.resetFrame f).host = s.host := rfl
@[simp] theorem State.resetFrame_srm (s : State) (f : FrameId) : (s.resetFrame f).srm = s.srm := rfl
@[simp] theorem State.resetFrame_csvs (s : State) (f : FrameId) : (s.resetFrame f).csvs = s.csvs := rfl
@[simp] theorem State.resetFrame_pwr (s : State) (f : FrameId) : (s.resetFrame f).pwr = s.pwr := rfl
@[simp] theorem State.resetFrame_out (s : State) (f : FrameId) : (s.resetFrame f).out = s.out := rfl

/-! ### raise -/
@[simp] theorem State.raise_pending (s : State) (f : FrameId) (off bit : Nat) : (s.raise f off bit).pending = s.pending := rfl
@[simp] theorem State.raise_freeCtr (s : State) (f : FrameId) (off bit : Nat) : (s.raise f off bit).freeCtr = s.freeCtr := rfl
@[simp] theorem State.raise_cores (s : State) (f : FrameId) (off bit : Nat) : (s.raise f off bit).cores = s.cores := rfl
@[simp] theorem State.raise_arrays (s : State) (f : FrameId) (off bit : Nat) : (s.raise f off bit).arrays = s.arrays := rfl
@[simp] theorem State.raise_aes (s : State) (f : FrameId) (off bit : Nat) : (s.raise f off bit).aes = s.aes := rfl
@[simp] theorem State.raise_caches (s : State) (f : FrameId) (off bit : Nat) : (s.raise f off bit).caches = s.caches := rfl
@[simp] theorem State.raise_mem (s : State) (f : FrameId) (off bit : Nat) : (s.raise f off bit).mem = s.mem := rfl
@[simp] theorem State.raise_memPoison (s : State) (f : FrameId) (off bit : Nat) : (s.raise f off bit).memPoison = s.memPoison := rfl
@[simp] theorem State.raise_active (s : State) (f : FrameId) (off bit : Nat) : (s.raise f off bit).active = s.active := rfl
@[simp] theorem State.raise_pm (s : State) (f : FrameId) (off bit : Nat) : (s.raise f off bit).pm = s.pm := rfl
@[simp] theorem State.raise_cat (s : State) (f : FrameId) (off bit : Nat) : (s.raise f off bit).cat = s.cat := rfl
@[simp] theorem State.raise_regions (s : State) (f : FrameId) (off bit : Nat) : (s.raise f off bit).regions = s.regions := rfl
@[simp] theorem State.raise_ev (s : State) (f : FrameId) (off bit : Nat) : (s.raise f off bit).ev = s.ev := rfl
@[simp] theorem State.raise_sync (s : State) (f : FrameId) (off bit : Nat) : (s.raise f off bit).sync = s.sync := rfl
@[simp] theorem State.raise_upes (s : State) (f : FrameId) (off bit : Nat) : (s.raise f off bit).upes = s.upes := rfl
@[simp] theorem State.raise_turns (s : State) (f : FrameId) (off bit : Nat) : (s.raise f off bit).turns = s.turns := rfl
@[simp] theorem State.raise_links (s : State) (f : FrameId) (off bit : Nat) : (s.raise f off bit).links = s.links := rfl
@[simp] theorem State.raise_host (s : State) (f : FrameId) (off bit : Nat) : (s.raise f off bit).host = s.host := rfl
@[simp] theorem State.raise_srm (s : State) (f : FrameId) (off bit : Nat) : (s.raise f off bit).srm = s.srm := rfl
@[simp] theorem State.raise_csvs (s : State) (f : FrameId) (off bit : Nat) : (s.raise f off bit).csvs = s.csvs := rfl
@[simp] theorem State.raise_pwr (s : State) (f : FrameId) (off bit : Nat) : (s.raise f off bit).pwr = s.pwr := rfl
@[simp] theorem State.raise_out (s : State) (f : FrameId) (off bit : Nat) : (s.raise f off bit).out = s.out := rfl

/-! ### raiseMask -/
@[simp] theorem State.raiseMask_pending (s : State) (f : FrameId) (off m : Nat) : (s.raiseMask f off m).pending = s.pending := rfl
@[simp] theorem State.raiseMask_freeCtr (s : State) (f : FrameId) (off m : Nat) : (s.raiseMask f off m).freeCtr = s.freeCtr := rfl
@[simp] theorem State.raiseMask_cores (s : State) (f : FrameId) (off m : Nat) : (s.raiseMask f off m).cores = s.cores := rfl
@[simp] theorem State.raiseMask_arrays (s : State) (f : FrameId) (off m : Nat) : (s.raiseMask f off m).arrays = s.arrays := rfl
@[simp] theorem State.raiseMask_aes (s : State) (f : FrameId) (off m : Nat) : (s.raiseMask f off m).aes = s.aes := rfl
@[simp] theorem State.raiseMask_caches (s : State) (f : FrameId) (off m : Nat) : (s.raiseMask f off m).caches = s.caches := rfl
@[simp] theorem State.raiseMask_mem (s : State) (f : FrameId) (off m : Nat) : (s.raiseMask f off m).mem = s.mem := rfl
@[simp] theorem State.raiseMask_memPoison (s : State) (f : FrameId) (off m : Nat) : (s.raiseMask f off m).memPoison = s.memPoison := rfl
@[simp] theorem State.raiseMask_active (s : State) (f : FrameId) (off m : Nat) : (s.raiseMask f off m).active = s.active := rfl
@[simp] theorem State.raiseMask_pm (s : State) (f : FrameId) (off m : Nat) : (s.raiseMask f off m).pm = s.pm := rfl
@[simp] theorem State.raiseMask_cat (s : State) (f : FrameId) (off m : Nat) : (s.raiseMask f off m).cat = s.cat := rfl
@[simp] theorem State.raiseMask_regions (s : State) (f : FrameId) (off m : Nat) : (s.raiseMask f off m).regions = s.regions := rfl
@[simp] theorem State.raiseMask_ev (s : State) (f : FrameId) (off m : Nat) : (s.raiseMask f off m).ev = s.ev := rfl
@[simp] theorem State.raiseMask_sync (s : State) (f : FrameId) (off m : Nat) : (s.raiseMask f off m).sync = s.sync := rfl
@[simp] theorem State.raiseMask_upes (s : State) (f : FrameId) (off m : Nat) : (s.raiseMask f off m).upes = s.upes := rfl
@[simp] theorem State.raiseMask_turns (s : State) (f : FrameId) (off m : Nat) : (s.raiseMask f off m).turns = s.turns := rfl
@[simp] theorem State.raiseMask_links (s : State) (f : FrameId) (off m : Nat) : (s.raiseMask f off m).links = s.links := rfl
@[simp] theorem State.raiseMask_host (s : State) (f : FrameId) (off m : Nat) : (s.raiseMask f off m).host = s.host := rfl
@[simp] theorem State.raiseMask_srm (s : State) (f : FrameId) (off m : Nat) : (s.raiseMask f off m).srm = s.srm := rfl
@[simp] theorem State.raiseMask_csvs (s : State) (f : FrameId) (off m : Nat) : (s.raiseMask f off m).csvs = s.csvs := rfl
@[simp] theorem State.raiseMask_pwr (s : State) (f : FrameId) (off m : Nat) : (s.raiseMask f off m).pwr = s.pwr := rfl
@[simp] theorem State.raiseMask_out (s : State) (f : FrameId) (off m : Nat) : (s.raiseMask f off m).out = s.out := rfl

/-! ### setAe -/
@[simp] theorem State.setAe_pending (s : State) (k : Nat) (a : Ae) : (s.setAe k a).pending = s.pending := rfl
@[simp] theorem State.setAe_freeCtr (s : State) (k : Nat) (a : Ae) : (s.setAe k a).freeCtr = s.freeCtr := rfl
@[simp] theorem State.setAe_frames (s : State) (k : Nat) (a : Ae) : (s.setAe k a).frames = s.frames := rfl
@[simp] theorem State.setAe_cores (s : State) (k : Nat) (a : Ae) : (s.setAe k a).cores = s.cores := rfl
@[simp] theorem State.setAe_arrays (s : State) (k : Nat) (a : Ae) : (s.setAe k a).arrays = s.arrays := rfl
@[simp] theorem State.setAe_caches (s : State) (k : Nat) (a : Ae) : (s.setAe k a).caches = s.caches := rfl
@[simp] theorem State.setAe_mem (s : State) (k : Nat) (a : Ae) : (s.setAe k a).mem = s.mem := rfl
@[simp] theorem State.setAe_memPoison (s : State) (k : Nat) (a : Ae) : (s.setAe k a).memPoison = s.memPoison := rfl
@[simp] theorem State.setAe_active (s : State) (k : Nat) (a : Ae) : (s.setAe k a).active = s.active := rfl
@[simp] theorem State.setAe_pm (s : State) (k : Nat) (a : Ae) : (s.setAe k a).pm = s.pm := rfl
@[simp] theorem State.setAe_cat (s : State) (k : Nat) (a : Ae) : (s.setAe k a).cat = s.cat := rfl
@[simp] theorem State.setAe_regions (s : State) (k : Nat) (a : Ae) : (s.setAe k a).regions = s.regions := rfl
@[simp] theorem State.setAe_ev (s : State) (k : Nat) (a : Ae) : (s.setAe k a).ev = s.ev := rfl
@[simp] theorem State.setAe_sync (s : State) (k : Nat) (a : Ae) : (s.setAe k a).sync = s.sync := rfl
@[simp] theorem State.setAe_upes (s : State) (k : Nat) (a : Ae) : (s.setAe k a).upes = s.upes := rfl
@[simp] theorem State.setAe_turns (s : State) (k : Nat) (a : Ae) : (s.setAe k a).turns = s.turns := rfl
@[simp] theorem State.setAe_links (s : State) (k : Nat) (a : Ae) : (s.setAe k a).links = s.links := rfl
@[simp] theorem State.setAe_host (s : State) (k : Nat) (a : Ae) : (s.setAe k a).host = s.host := rfl
@[simp] theorem State.setAe_srm (s : State) (k : Nat) (a : Ae) : (s.setAe k a).srm = s.srm := rfl
@[simp] theorem State.setAe_csvs (s : State) (k : Nat) (a : Ae) : (s.setAe k a).csvs = s.csvs := rfl
@[simp] theorem State.setAe_pwr (s : State) (k : Nat) (a : Ae) : (s.setAe k a).pwr = s.pwr := rfl
@[simp] theorem State.setAe_out (s : State) (k : Nat) (a : Ae) : (s.setAe k a).out = s.out := rfl

/-! ### modAe -/
@[simp] theorem State.modAe_pending (s : State) (k : Nat) (f : Ae → Ae) : (s.modAe k f).pending = s.pending := rfl
@[simp] theorem State.modAe_freeCtr (s : State) (k : Nat) (f : Ae → Ae) : (s.modAe k f).freeCtr = s.freeCtr := rfl
@[simp] theorem State.modAe_frames (s : State) (k : Nat) (f : Ae → Ae) : (s.modAe k f).frames = s.frames := rfl
@[simp] theorem State.modAe_cores (s : State) (k : Nat) (f : Ae → Ae) : (s.modAe k f).cores = s.cores := rfl
@[simp] theorem State.modAe_arrays (s : State) (k : Nat) (f : Ae → Ae) : (s.modAe k f).arrays = s.arrays := rfl
@[simp] theorem State.modAe_caches (s : State) (k : Nat) (f : Ae → Ae) : (s.modAe k f).caches = s.caches := rfl
@[simp] theorem State.modAe_mem (s : State) (k : Nat) (f : Ae → Ae) : (s.modAe k f).mem = s.mem := rfl
@[simp] theorem State.modAe_memPoison (s : State) (k : Nat) (f : Ae → Ae) : (s.modAe k f).memPoison = s.memPoison := rfl
@[simp] theorem State.modAe_active (s : State) (k : Nat) (f : Ae → Ae) : (s.modAe k f).active = s.active := rfl
@[simp] theorem State.modAe_pm (s : State) (k : Nat) (f : Ae → Ae) : (s.modAe k f).pm = s.pm := rfl
@[simp] theorem State.modAe_cat (s : State) (k : Nat) (f : Ae → Ae) : (s.modAe k f).cat = s.cat := rfl
@[simp] theorem State.modAe_regions (s : State) (k : Nat) (f : Ae → Ae) : (s.modAe k f).regions = s.regions := rfl
@[simp] theorem State.modAe_ev (s : State) (k : Nat) (f : Ae → Ae) : (s.modAe k f).ev = s.ev := rfl
@[simp] theorem State.modAe_sync (s : State) (k : Nat) (f : Ae → Ae) : (s.modAe k f).sync = s.sync := rfl
@[simp] theorem State.modAe_upes (s : State) (k : Nat) (f : Ae → Ae) : (s.modAe k f).upes = s.upes := rfl
@[simp] theorem State.modAe_turns (s : State) (k : Nat) (f : Ae → Ae) : (s.modAe k f).turns = s.turns := rfl
@[simp] theorem State.modAe_links (s : State) (k : Nat) (f : Ae → Ae) : (s.modAe k f).links = s.links := rfl
@[simp] theorem State.modAe_host (s : State) (k : Nat) (f : Ae → Ae) : (s.modAe k f).host = s.host := rfl
@[simp] theorem State.modAe_srm (s : State) (k : Nat) (f : Ae → Ae) : (s.modAe k f).srm = s.srm := rfl
@[simp] theorem State.modAe_csvs (s : State) (k : Nat) (f : Ae → Ae) : (s.modAe k f).csvs = s.csvs := rfl
@[simp] theorem State.modAe_pwr (s : State) (k : Nat) (f : Ae → Ae) : (s.modAe k f).pwr = s.pwr := rfl
@[simp] theorem State.modAe_out (s : State) (k : Nat) (f : Ae → Ae) : (s.modAe k f).out = s.out := rfl

/-! ### setQueue -/
@[simp] theorem State.setQueue_pending (s : State) (k q : Nat) (l : List QEntry) : (s.setQueue k q l).pending = s.pending := rfl
@[simp] theorem State.setQueue_freeCtr (s : State) (k q : Nat) (l : List QEntry) : (s.setQueue k q l).freeCtr = s.freeCtr := rfl
@[simp] theorem State.setQueue_frames (s : State) (k q : Nat) (l : List QEntry) : (s.setQueue k q l).frames = s.frames := rfl
@[simp] theorem State.setQueue_cores (s : State) (k q : Nat) (l : List QEntry) : (s.setQueue k q l).cores = s.cores := rfl
@[simp] theorem State.setQueue_arrays (s : State) (k q : Nat) (l : List QEntry) : (s.setQueue k q l).arrays = s.arrays := rfl
@[simp] theorem State.setQueue_caches (s : State) (k q : Nat) (l : List QEntry) : (s.setQueue k q l).caches = s.caches := rfl
@[simp] theorem State.setQueue_mem (s : State) (k q : Nat) (l : List QEntry) : (s.setQueue k q l).mem = s.mem := rfl
@[simp] theorem State.setQueue_memPoison (s : State) (k q : Nat) (l : List QEntry) : (s.setQueue k q l).memPoison = s.memPoison := rfl
@[simp] theorem State.setQueue_active (s : State) (k q : Nat) (l : List QEntry) : (s.setQueue k q l).active = s.active := rfl
@[simp] theorem State.setQueue_pm (s : State) (k q : Nat) (l : List QEntry) : (s.setQueue k q l).pm = s.pm := rfl
@[simp] theorem State.setQueue_cat (s : State) (k q : Nat) (l : List QEntry) : (s.setQueue k q l).cat = s.cat := rfl
@[simp] theorem State.setQueue_regions (s : State) (k q : Nat) (l : List QEntry) : (s.setQueue k q l).regions = s.regions := rfl
@[simp] theorem State.setQueue_ev (s : State) (k q : Nat) (l : List QEntry) : (s.setQueue k q l).ev = s.ev := rfl
@[simp] theorem State.setQueue_sync (s : State) (k q : Nat) (l : List QEntry) : (s.setQueue k q l).sync = s.sync := rfl
@[simp] theorem State.setQueue_upes (s : State) (k q : Nat) (l : List QEntry) : (s.setQueue k q l).upes = s.upes := rfl
@[simp] theorem State.setQueue_turns (s : State) (k q : Nat) (l : List QEntry) : (s.setQueue k q l).turns = s.turns := rfl
@[simp] theorem State.setQueue_links (s : State) (k q : Nat) (l : List QEntry) : (s.setQueue k q l).links = s.links := rfl
@[simp] theorem State.setQueue_host (s : State) (k q : Nat) (l : List QEntry) : (s.setQueue k q l).host = s.host := rfl
@[simp] theorem State.setQueue_srm (s : State) (k q : Nat) (l : List QEntry) : (s.setQueue k q l).srm = s.srm := rfl
@[simp] theorem State.setQueue_csvs (s : State) (k q : Nat) (l : List QEntry) : (s.setQueue k q l).csvs = s.csvs := rfl
@[simp] theorem State.setQueue_pwr (s : State) (k q : Nat) (l : List QEntry) : (s.setQueue k q l).pwr = s.pwr := rfl
@[simp] theorem State.setQueue_out (s : State) (k q : Nat) (l : List QEntry) : (s.setQueue k q l).out = s.out := rfl

/-! ### setDesc -/
@[simp] theorem State.setDesc_pending (s : State) (k n : Nat) (d : Desc) : (s.setDesc k n d).pending = s.pending := rfl
@[simp] theorem State.setDesc_freeCtr (s : State) (k n : Nat) (d : Desc) : (s.setDesc k n d).freeCtr = s.freeCtr := rfl
@[simp] theorem State.setDesc_frames (s : State) (k n : Nat) (d : Desc) : (s.setDesc k n d).frames = s.frames := rfl
@[simp] theorem State.setDesc_cores (s : State) (k n : Nat) (d : Desc) : (s.setDesc k n d).cores = s.cores := rfl
@[simp] theorem State.setDesc_arrays (s : State) (k n : Nat) (d : Desc) : (s.setDesc k n d).arrays = s.arrays := rfl
@[simp] theorem State.setDesc_caches (s : State) (k n : Nat) (d : Desc) : (s.setDesc k n d).caches = s.caches := rfl
@[simp] theorem State.setDesc_mem (s : State) (k n : Nat) (d : Desc) : (s.setDesc k n d).mem = s.mem := rfl
@[simp] theorem State.setDesc_memPoison (s : State) (k n : Nat) (d : Desc) : (s.setDesc k n d).memPoison = s.memPoison := rfl
@[simp] theorem State.setDesc_active (s : State) (k n : Nat) (d : Desc) : (s.setDesc k n d).active = s.active := rfl
@[simp] theorem State.setDesc_pm (s : State) (k n : Nat) (d : Desc) : (s.setDesc k n d).pm = s.pm := rfl
@[simp] theorem State.setDesc_cat (s : State) (k n : Nat) (d : Desc) : (s.setDesc k n d).cat = s.cat := rfl
@[simp] theorem State.setDesc_regions (s : State) (k n : Nat) (d : Desc) : (s.setDesc k n d).regions = s.regions := rfl
@[simp] theorem State.setDesc_ev (s : State) (k n : Nat) (d : Desc) : (s.setDesc k n d).ev = s.ev := rfl
@[simp] theorem State.setDesc_sync (s : State) (k n : Nat) (d : Desc) : (s.setDesc k n d).sync = s.sync := rfl
@[simp] theorem State.setDesc_upes (s : State) (k n : Nat) (d : Desc) : (s.setDesc k n d).upes = s.upes := rfl
@[simp] theorem State.setDesc_turns (s : State) (k n : Nat) (d : Desc) : (s.setDesc k n d).turns = s.turns := rfl
@[simp] theorem State.setDesc_links (s : State) (k n : Nat) (d : Desc) : (s.setDesc k n d).links = s.links := rfl
@[simp] theorem State.setDesc_host (s : State) (k n : Nat) (d : Desc) : (s.setDesc k n d).host = s.host := rfl
@[simp] theorem State.setDesc_srm (s : State) (k n : Nat) (d : Desc) : (s.setDesc k n d).srm = s.srm := rfl
@[simp] theorem State.setDesc_csvs (s : State) (k n : Nat) (d : Desc) : (s.setDesc k n d).csvs = s.csvs := rfl
@[simp] theorem State.setDesc_pwr (s : State) (k n : Nat) (d : Desc) : (s.setDesc k n d).pwr = s.pwr := rfl
@[simp] theorem State.setDesc_out (s : State) (k n : Nat) (d : Desc) : (s.setDesc k n d).out = s.out := rfl

/-! ### setCache -/
@[simp] theorem State.setCache_pending (s : State) (k : Nat) (c : MemCache) : (s.setCache k c).pending = s.pending := rfl
@[simp] theorem State.setCache_freeCtr (s : State) (k : Nat) (c : MemCache) : (s.setCache k c).freeCtr = s.freeCtr := rfl
@[simp] theorem State.setCache_frames (s : State) (k : Nat) (c : MemCache) : (s.setCache k c).frames = s.frames := rfl
@[simp] theorem State.setCache_cores (s : State) (k : Nat) (c : MemCache) : (s.setCache k c).cores = s.cores := rfl
@[simp] theorem State.setCache_arrays (s : State) (k : Nat) (c : MemCache) : (s.setCache k c).arrays = s.arrays := rfl
@[simp] theorem State.setCache_aes (s : State) (k : Nat) (c : MemCache) : (s.setCache k c).aes = s.aes := rfl
@[simp] theorem State.setCache_mem (s : State) (k : Nat) (c : MemCache) : (s.setCache k c).mem = s.mem := rfl
@[simp] theorem State.setCache_memPoison (s : State) (k : Nat) (c : MemCache) : (s.setCache k c).memPoison = s.memPoison := rfl
@[simp] theorem State.setCache_active (s : State) (k : Nat) (c : MemCache) : (s.setCache k c).active = s.active := rfl
@[simp] theorem State.setCache_pm (s : State) (k : Nat) (c : MemCache) : (s.setCache k c).pm = s.pm := rfl
@[simp] theorem State.setCache_cat (s : State) (k : Nat) (c : MemCache) : (s.setCache k c).cat = s.cat := rfl
@[simp] theorem State.setCache_regions (s : State) (k : Nat) (c : MemCache) : (s.setCache k c).regions = s.regions := rfl
@[simp] theorem State.setCache_ev (s : State) (k : Nat) (c : MemCache) : (s.setCache k c).ev = s.ev := rfl
@[simp] theorem State.setCache_sync (s : State) (k : Nat) (c : MemCache) : (s.setCache k c).sync = s.sync := rfl
@[simp] theorem State.setCache_upes (s : State) (k : Nat) (c : MemCache) : (s.setCache k c).upes = s.upes := rfl
@[simp] theorem State.setCache_turns (s : State) (k : Nat) (c : MemCache) : (s.setCache k c).turns = s.turns := rfl
@[simp] theorem State.setCache_links (s : State) (k : Nat) (c : MemCache) : (s.setCache k c).links = s.links := rfl
@[simp] theorem State.setCache_host (s : State) (k : Nat) (c : MemCache) : (s.setCache k c).host = s.host := rfl
@[simp] theorem State.setCache_srm (s : State) (k : Nat) (c : MemCache) : (s.setCache k c).srm = s.srm := rfl
@[simp] theorem State.setCache_csvs (s : State) (k : Nat) (c : MemCache) : (s.setCache k c).csvs = s.csvs := rfl
@[simp] theorem State.setCache_pwr (s : State) (k : Nat) (c : MemCache) : (s.setCache k c).pwr = s.pwr := rfl
@[simp] theorem State.setCache_out (s : State) (k : Nat) (c : MemCache) : (s.setCache k c).out = s.out := rfl

/-! ### modCache -/
@[simp] theorem State.modCache_pending (s : State) (k : Nat) (f : MemCache → MemCache) : (s.modCache k f).pending = s.pending := rfl
@[simp] theorem State.modCache_freeCtr (s : State) (k : Nat) (f : MemCache → MemCache) : (s.modCache k f).freeCtr = s.freeCtr := rfl
@[simp] theorem State.modCache_frames (s : State) (k : Nat) (f : MemCache → MemCache) : (s.modCache k f).frames = s.frames := rfl
@[simp] theorem State.modCache_cores (s : State) (k : Nat) (f : MemCache → MemCache) : (s.modCache k f).cores = s.cores := rfl
@[simp] theorem State.modCache_arrays (s : State) (k : Nat) (f : MemCache → MemCache) : (s.modCache k f).arrays = s.arrays := rfl
@[simp] theorem State.modCache_aes (s : State) (k : Nat) (f : MemCache → MemCache) : (s.modCache k f).aes = s.aes := rfl
@[simp] theorem State.modCache_mem (s : State) (k : Nat) (f : MemCache → MemCache) : (s.modCache k f).mem = s.mem := rfl
@[simp] theorem State.modCache_memPoison (s : State) (k : Nat) (f : MemCache → MemCache) : (s.modCache k f).memPoison = s.memPoison := rfl
@[simp] theorem State.modCache_active (s : State) (k : Nat) (f : MemCache → MemCache) : (s.modCache k f).active = s.active := rfl
@[simp] theorem State.modCache_pm (s : State) (k : Nat) (f : MemCache → MemCache) : (s.modCache k f).pm = s.pm := rfl
@[simp] theorem State.modCache_cat (s : State) (k : Nat) (f : MemCache → MemCache) : (s.modCache k f).cat = s.cat := rfl
@[simp] theorem State.modCache_regions (s : State) (k : Nat) (f : MemCache → MemCache) : (s.modCache k f).regions = s.regions := rfl
@[simp] theorem State.modCache_ev (s : State) (k : Nat) (f : MemCache → MemCache) : (s.modCache k f).ev = s.ev := rfl
@[simp] theorem State.modCache_sync (s : State) (k : Nat) (f : MemCache → MemCache) : (s.modCache k f).sync = s.sync := rfl
@[simp] theorem State.modCache_upes (s : State) (k : Nat) (f : MemCache → MemCache) : (s.modCache k f).upes = s.upes := rfl
@[simp] theorem State.modCache_turns (s : State) (k : Nat) (f : MemCache → MemCache) : (s.modCache k f).turns = s.turns := rfl
@[simp] theorem State.modCache_links (s : State) (k : Nat) (f : MemCache → MemCache) : (s.modCache k f).links = s.links := rfl
@[simp] theorem State.modCache_host (s : State) (k : Nat) (f : MemCache → MemCache) : (s.modCache k f).host = s.host := rfl
@[simp] theorem State.modCache_srm (s : State) (k : Nat) (f : MemCache → MemCache) : (s.modCache k f).srm = s.srm := rfl
@[simp] theorem State.modCache_csvs (s : State) (k : Nat) (f : MemCache → MemCache) : (s.modCache k f).csvs = s.csvs := rfl
@[simp] theorem State.modCache_pwr (s : State) (k : Nat) (f : MemCache → MemCache) : (s.modCache k f).pwr = s.pwr := rfl
@[simp] theorem State.modCache_out (s : State) (k : Nat) (f : MemCache → MemCache) : (s.modCache k f).out = s.out := rfl

/-! ### setCore -/
@[simp] theorem State.setCore_pending (s : State) (k : Nat) (c : Core) : (s.setCore k c).pending = s.pending := rfl
@[simp] theorem State.setCore_freeCtr (s : State) (k : Nat) (c : Core) : (s.setCore k c).freeCtr = s.freeCtr := rfl
@[simp] theorem State.setCore_frames (s : State) (k : Nat) (c : Core) : (s.setCore k c).frames = s.frames := rfl
@[simp] theorem State.setCore_arrays (s : State) (k : Nat) (c : Core) : (s.setCore k c).arrays = s.arrays := rfl
@[simp] theorem State.setCore_aes (s : State) (k : Nat) (c : Core) : (s.setCore k c).aes = s.aes := rfl
@[simp] theorem State.setCore_caches (s : State) (k : Nat) (c : Core) : (s.setCore k c).caches = s.caches := rfl
@[simp] theorem State.setCore_mem (s : State) (k : Nat) (c : Core) : (s.setCore k c).mem = s.mem := rfl
@[simp] theorem State.setCore_memPoison (s : State) (k : Nat) (c : Core) : (s.setCore k c).memPoison = s.memPoison := rfl
@[simp] theorem State.setCore_active (s : State) (k : Nat) (c : Core) : (s.setCore k c).active = s.active := rfl
@[simp] theorem State.setCore_pm (s : State) (k : Nat) (c : Core) : (s.setCore k c).pm = s.pm := rfl
@[simp] theorem State.setCore_cat (s : State) (k : Nat) (c : Core) : (s.setCore k c).cat = s.cat := rfl
@[simp] theorem State.setCore_regions (s : State) (k : Nat) (c : Core) : (s.setCore k c).regions = s.regions := rfl
@[simp] theorem State.setCore_ev (s : State) (k : Nat) (c : Core) : (s.setCore k c).ev = s.ev := rfl
@[simp] theorem State.setCore_sync (s : State) (k : Nat) (c : Core) : (s.setCore k c).sync = s.sync := rfl
@[simp] theorem State.setCore_upes (s : State) (k : Nat) (c : Core) : (s.setCore k c).upes = s.upes := rfl
@[simp] theorem State.setCore_turns (s : State) (k : Nat) (c : Core) : (s.setCore k c).turns = s.turns := rfl
@[simp] theorem State.setCore_links (s : State) (k : Nat) (c : Core) : (s.setCore k c).links = s.links := rfl
@[simp] theorem State.setCore_host (s : State) (k : Nat) (c : Core) : (s.setCore k c).host = s.host := rfl
@[simp] theorem State.setCore_srm (s : State) (k : Nat) (c : Core) : (s.setCore k c).srm = s.srm := rfl
@[simp] theorem State.setCore_csvs (s : State) (k : Nat) (c : Core) : (s.setCore k c).csvs = s.csvs := rfl
@[simp] theorem State.setCore_pwr (s : State) (k : Nat) (c : Core) : (s.setCore k c).pwr = s.pwr := rfl
@[simp] theorem State.setCore_out (s : State) (k : Nat) (c : Core) : (s.setCore k c).out = s.out := rfl

/-! ### modCore -/
@[simp] theorem State.modCore_pending (s : State) (k : Nat) (f : Core → Core) : (s.modCore k f).pending = s.pending := rfl
@[simp] theorem State.modCore_freeCtr (s : State) (k : Nat) (f : Core → Core) : (s.modCore k f).freeCtr = s.freeCtr := rfl
@[simp] theorem State.modCore_frames (s : State) (k : Nat) (f : Core → Core) : (s.modCore k f).frames = s.frames := rfl
@[simp] theorem State.modCore_arrays (s : State) (k : Nat) (f : Core → Core) : (s.modCore k f).arrays = s.arrays := rfl
@[simp] theorem State.modCore_aes (s : State) (k : Nat) (f : Core → Core) : (s.modCore k f).aes = s.aes := rfl
@[simp] theorem State.modCore_caches (s : State) (k : Nat) (f : Core → Core) : (s.modCore k f).caches = s.caches := rfl
@[simp] theorem State.modCore_mem (s : State) (k : Nat) (f : Core → Core) : (s.modCore k f).mem = s.mem := rfl
@[simp] theorem State.modCore_memPoison (s : State) (k : Nat) (f : Core → Core) : (s.modCore k f).memPoison = s.memPoison := rfl
@[simp] theorem State.modCore_active (s : State) (k : Nat) (f : Core → Core) : (s.modCore k f).active = s.active := rfl
@[simp] theorem State.modCore_pm (s : State) (k : Nat) (f : Core → Core) : (s.modCore k f).pm = s.pm := rfl
@[simp] theorem State.modCore_cat (s : State) (k : Nat) (f : Core → Core) : (s.modCore k f).cat = s.cat := rfl
@[simp] theorem State.modCore_regions (s : State) (k : Nat) (f : Core → Core) : (s.modCore k f).regions = s.regions := rfl
@[simp] theorem State.modCore_ev (s : State) (k : Nat) (f : Core → Core) : (s.modCore k f).ev = s.ev := rfl
@[simp] theorem State.modCore_sync (s : State) (k : Nat) (f : Core → Core) : (s.modCore k f).sync = s.sync := rfl
@[simp] theorem State.modCore_upes (s : State) (k : Nat) (f : Core → Core) : (s.modCore k f).upes = s.upes := rfl
@[simp] theorem State.modCore_turns (s : State) (k : Nat) (f : Core → Core) : (s.modCore k f).turns = s.turns := rfl
@[simp] theorem State.modCore_links (s : State) (k : Nat) (f : Core → Core) : (s.modCore k f).links = s.links := rfl
@[simp] theorem State.modCore_host (s : State) (k : Nat) (f : Core → Core) : (s.modCore k f).host = s.host := rfl
@[simp] theorem State.modCore_srm (s : State) (k : Nat) (f : Core → Core) : (s.modCore k f).srm = s.srm := rfl
@[simp] theorem State.modCore_csvs (s : State) (k : Nat) (f : Core → Core) : (s.modCore k f).csvs = s.csvs := rfl
@[simp] theorem State.modCore_pwr (s : State) (k : Nat) (f : Core → Core) : (s.modCore k f).pwr = s.pwr := rfl
@[simp] theorem State.modCore_out (s : State) (k : Nat) (f : Core → Core) : (s.modCore k f).out = s.out := rfl

/-! ### setPc -/
@[simp] theorem State.setPc_pending (s : State) (k : Nat) (v : W64) : (s.setPc k v).pending = s.pending := rfl
@[simp] theorem State.setPc_freeCtr (s : State) (k : Nat) (v : W64) : (s.setPc k v).freeCtr = s.freeCtr := rfl
@[simp] theorem State.setPc_frames (s : State) (k : Nat) (v : W64) : (s.setPc k v).frames = s.frames := rfl
@[simp] theorem State.setPc_arrays (s : State) (k : Nat) (v : W64) : (s.setPc k v).arrays = s.arrays := rfl
@[simp] theorem State.setPc_aes (s : State) (k : Nat) (v : W64) : (s.setPc k v).aes = s.aes := rfl
@[simp] theorem State.setPc_caches (s : State) (k : Nat) (v : W64) : (s.setPc k v).caches = s.caches := rfl
@[simp] theorem State.setPc_mem (s : State) (k : Nat) (v : W64) : (s.setPc k v).mem = s.mem := rfl
@[simp] theorem State.setPc_memPoison (s : State) (k : Nat) (v : W64) : (s.setPc k v).memPoison = s.memPoison := rfl
@[simp] theorem State.setPc_active (s : State) (k : Nat) (v : W64) : (s.setPc k v).active = s.active := rfl
@[simp] theorem State.setPc_pm (s : State) (k : Nat) (v : W64) : (s.setPc k v).pm = s.pm := rfl
@[simp] theorem State.setPc_cat (s : State) (k : Nat) (v : W64) : (s.setPc k v).cat = s.cat := rfl
@[simp] theorem State.setPc_regions (s : State) (k : Nat) (v : W64) : (s.setPc k v).regions = s.regions := rfl
@[simp] theorem State.setPc_ev (s : State) (k : Nat) (v : W64) : (s.setPc k v).ev = s.ev := rfl
@[simp] theorem State.setPc_sync (s : State) (k : Nat) (v : W64) : (s.setPc k v).sync = s.sync := rfl
@[simp] theorem State.setPc_upes (s : State) (k : Nat) (v : W64) : (s.setPc k v).upes = s.upes := rfl
@[simp] theorem State.setPc_turns (s : State) (k : Nat) (v : W64) : (s.setPc k v).turns = s.turns := rfl
@[simp] theorem State.setPc_links (s : State) (k : Nat) (v : W64) : (s.setPc k v).links = s.links := rfl
@[simp] theorem State.setPc_host (s : State) (k : Nat) (v : W64) : (s.setPc k v).host = s.host := rfl
@[simp] theorem State.setPc_srm (s : State) (k : Nat) (v : W64) : (s.setPc k v).srm = s.srm := rfl
@[simp] theorem State.setPc_csvs (s : State) (k : Nat) (v : W64) : (s.setPc k v).csvs = s.csvs := rfl
@[simp] theorem State.setPc_pwr (s : State) (k : Nat) (v : W64) : (s.setPc k v).pwr = s.pwr := rfl
@[simp] theorem State.setPc_out (s : State) (k : Nat) (v : W64) : (s.setPc k v).out = s.out := rfl

/-! ### ipop -/
@[simp] theorem State.ipop_pending (s : State) (k n : Nat) : (s.ipop k n).pending = s.pending := rfl
@[simp] theorem State.ipop_freeCtr (s : State) (k n : Nat) : (s.ipop k n).freeCtr = s.freeCtr := rfl
@[simp] theorem State.ipop_frames (s : State) (k n : Nat) : (s.ipop k n).frames = s.frames := rfl
@[simp] theorem State.ipop_arrays (s : State) (k n : Nat) : (s.ipop k n).arrays = s.arrays := rfl
@[simp] theorem State.ipop_aes (s : State) (k n : Nat) : (s.ipop k n).aes = s.aes := rfl
@[simp] theorem State.ipop_caches (s : State) (k n : Nat) : (s.ipop k n).caches = s.caches := rfl
@[simp] theorem State.ipop_mem (s : State) (k n : Nat) : (s.ipop k n).mem = s.mem := rfl
@[simp] theorem State.ipop_memPoison (s : State) (k n : Nat) : (s.ipop k n).memPoison = s.memPoison := rfl
@[simp] theorem State.ipop_active (s : State) (k n : Nat) : (s.ipop k n).active = s.active := rfl
@[simp] theorem State.ipop_pm (s : State) (k n : Nat) : (s.ipop k n).pm = s.pm := rfl
@[simp] theorem State.ipop_cat (s : State) (k n : Nat) : (s.ipop k n).cat = s.cat := rfl
@[simp] theorem State.ipop_regions (s : State) (k n : Nat) : (s.ipop k n).regions = s.regions := rfl
@[simp] theorem State.ipop_ev (s : State) (k n : Nat) : (s.ipop k n).ev = s.ev := rfl
@[simp] theorem State.ipop_sync (s : State) (k n : Nat) : (s.ipop k n).sync = s.sync := rfl
@[simp] theorem State.ipop_upes (s : State) (k n : Nat) : (s.ipop k n).upes = s.upes := rfl
@[simp] theorem State.ipop_turns (s : State) (k n : Nat) : (s.ipop k n).turns = s.turns := rfl
@[simp] theorem State.ipop_links (s : State) (k n : Nat) : (s.ipop k n).links = s.links := rfl
@[simp] theorem State.ipop_host (s : State) (k n : Nat) : (s.ipop k n).host = s.host := rfl
@[simp] theorem State.ipop_srm (s : State) (k n : Nat) : (s.ipop k n).srm = s.srm := rfl
@[simp] theorem State.ipop_csvs (s : State) (k n : Nat) : (s.ipop k n).csvs = s.csvs := rfl
@[simp] theorem State.ipop_pwr (s : State) (k n : Nat) : (s.ipop k n).pwr = s.pwr := rfl
@[simp] theorem State.ipop_out (s : State) (k n : Nat) : (s.ipop k n).out = s.out := rfl

/-! ### ipush -/
@[simp] theorem State.ipush_pending (s : State) (k : Nat) (v : W64) : (s.ipush k v).pending = s.pending := rfl
@[simp] theorem State.ipush_freeCtr (s : State) (k : Nat) (v : W64) : (s.ipush k v).freeCtr = s.freeCtr := rfl
@[simp] theorem State.ipush_frames (s : State) (k : Nat) (v : W64) : (s.ipush k v).frames = s.frames := rfl
@[simp] theorem State.ipush_arrays (s : State) (k : Nat) (v : W64) : (s.ipush k v).arrays = s.arrays := rfl
@[simp] theorem State.ipush_aes (s : State) (k : Nat) (v : W64) : (s.ipush k v).aes = s.aes := rfl
@[simp] theorem State.ipush_caches (s : State) (k : Nat) (v : W64) : (s.ipush k v).caches = s.caches := rfl
@[simp] theorem State.ipush_mem (s : State) (k : Nat) (v : W64) : (s.ipush k v).mem = s.mem := rfl
@[simp] theorem State.ipush_memPoison (s : State) (k : Nat) (v : W64) : (s.ipush k v).memPoison = s.memPoison := rfl
@[simp] theorem State.ipush_active (s : State) (k : Nat) (v : W64) : (s.ipush k v).active = s.active := rfl
@[simp] theorem State.ipush_pm (s : State) (k : Nat) (v : W64) : (s.ipush k v).pm = s.pm := rfl
@[simp] theorem State.ipush_cat (s : State) (k : Nat) (v : W64) : (s.ipush k v).cat = s.cat := rfl
@[simp] theorem State.ipush_regions (s : State) (k : Nat) (v : W64) : (s.ipush k v).regions = s.regions := rfl
@[simp] theorem State.ipush_ev (s : State) (k : Nat) (v : W64) : (s.ipush k v).ev = s.ev := rfl
@[simp] theorem State.ipush_sync (s : State) (k : Nat) (v : W64) : (s.ipush k v).sync = s.sync := rfl
@[simp] theorem State.ipush_upes (s : State) (k : Nat) (v : W64) : (s.ipush k v).upes = s.upes := rfl
@[simp] theorem State.ipush_turns (s : State) (k : Nat) (v : W64) : (s.ipush k v).turns = s.turns := rfl
@[simp] theorem State.ipush_links (s : State) (k : Nat) (v : W64) : (s.ipush k v).links = s.links := rfl
@[simp] theorem State.ipush_host (s : State) (k : Nat) (v : W64) : (s.ipush k v).host = s.host := rfl
@[simp] theorem State.ipush_srm (s : State) (k : Nat) (v : W64) : (s.ipush k v).srm = s.srm := rfl
@[simp] theorem State.ipush_csvs (s : State) (k : Nat) (v : W64) : (s.ipush k v).csvs = s.csvs := rfl
@[simp] theorem State.ipush_pwr (s : State) (k : Nat) (v : W64) : (s.ipush k v).pwr = s.pwr := rfl
@[simp] theorem State.ipush_out (s : State) (k : Nat) (v : W64) : (s.ipush k v).out = s.out := rfl

/-! ### vpop -/
@[simp] theorem State.vpop_pending (s : State) (k n : Nat) : (s.vpop k n).pending = s.pending := rfl
@[simp] theorem State.vpop_freeCtr (s : State) (k n : Nat) : (s.vpop k n).freeCtr = s.freeCtr := rfl
@[simp] theorem State.vpop_frames (s : State) (k n : Nat) : (s.vpop k n).frames = s.frames := rfl
@[simp] theorem State.vpop_arrays (s : State) (k n : Nat) : (s.vpop k n).arrays = s.arrays := rfl
@[simp] theorem State.vpop_aes (s : State) (k n : Nat) : (s.vpop k n).aes = s.aes := rfl
@[simp] theorem State.vpop_caches (s : State) (k n : Nat) : (s.vpop k n).caches = s.caches := rfl
@[simp] theorem State.vpop_mem (s : State) (k n : Nat) : (s.vpop k n).mem = s.mem := rfl
@[simp] theorem State.vpop_memPoison (s : State) (k n : Nat) : (s.vpop k n).memPoison = s.memPoison := rfl
@[simp] theorem State.vpop_active (s : State) (k n : Nat) : (s.vpop k n).active = s.active := rfl
@[simp] theorem State.vpop_pm (s : State) (k n : Nat) : (s.vpop k n).pm = s.pm := rfl
@[simp] theorem State.vpop_cat (s : State) (k n : Nat) : (s.vpop k n).cat = s.cat := rfl
@[simp] theorem State.vpop_regions (s : State) (k n : Nat) : (s.vpop k n).regions = s.regions := rfl
@[simp] theorem State.vpop_ev (s : State) (k n : Nat) : (s.vpop k n).ev = s.ev := rfl
@[simp] theorem State.vpop_sync (s : State) (k n : Nat) : (s.vpop k n).sync = s.sync := rfl
@[simp] theorem State.vpop_upes (s : State) (k n : Nat) : (s.vpop k n).upes = s.upes := rfl
@[simp] theorem State.vpop_turns (s : State) (k n : Nat) : (s.vpop k n).turns = s.turns := rfl
@[simp] theorem State.vpop_links (s : State) (k n : Nat) : (s.vpop k n).links = s.links := rfl
@[simp] theorem State.vpop_host (s : State) (k n : Nat) : (s.vpop k n).host = s.host := rfl
@[simp] theorem State.vpop_srm (s : State) (k n : Nat) : (s.vpop k n).srm = s.srm := rfl
@[simp] theorem State.vpop_csvs (s : State) (k n : Nat) : (s.vpop k n).csvs = s.csvs := rfl
@[simp] theorem State.vpop_pwr (s : State) (k n : Nat) : (s.vpop k n).pwr = s.pwr := rfl
@[simp] theorem State.vpop_out (s : State) (k n : Nat) : (s.vpop k n).out = s.out := rfl

/-! ### vpush -/
@[simp] theorem State.vpush_pending (s : State) (k : Nat) (v : VSlot) : (s.vpush k v).pending = s.pending := rfl
@[simp] theorem State.vpush_freeCtr (s : State) (k : Nat) (v : VSlot) : (s.vpush k v).freeCtr = s.freeCtr := rfl
@[simp] theorem State.vpush_frames (s : State) (k : Nat) (v : VSlot) : (s.vpush k v).frames = s.frames := rfl
@[simp] theorem State.vpush_arrays (s : State) (k : Nat) (v : VSlot) : (s.vpush k v).arrays = s.arrays := rfl
@[simp] theorem State.vpush_aes (s : State) (k : Nat) (v : VSlot) : (s.vpush k v).aes = s.aes := rfl
@[simp] theorem State.vpush_caches (s : State) (k : Nat) (v : VSlot) : (s.vpush k v).caches = s.caches := rfl
@[simp] theorem State.vpush_mem (s : State) (k : Nat) (v : VSlot) : (s.vpush k v).mem = s.mem := rfl
@[simp] theorem State.vpush_memPoison (s : State) (k : Nat) (v : VSlot) : (s.vpush k v).memPoison = s.memPoison := rfl
@[simp] theorem State.vpush_active (s : State) (k : Nat) (v : VSlot) : (s.vpush k v).active = s.active := rfl
@[simp] theorem State.vpush_pm (s : State) (k : Nat) (v : VSlot) : (s.vpush k v).pm = s.pm := rfl
@[simp] theorem State.vpush_cat (s : State) (k : Nat) (v : VSlot) : (s.vpush k v).cat = s.cat := rfl
@[simp] theorem State.vpush_regions (s : State) (k : Nat) (v : VSlot) : (s.vpush k v).regions = s.regions := rfl
@[simp] theorem State.vpush_ev (s : State) (k : Nat) (v : VSlot) : (s.vpush k v).ev = s.ev := rfl
@[simp] theorem State.vpush_sync (s : State) (k : Nat) (v : VSlot) : (s.vpush k v).sync = s.sync := rfl
@[simp] theorem State.vpush_upes (s : State) (k : Nat) (v : VSlot) : (s.vpush k v).upes = s.upes := rfl
@[simp] theorem State.vpush_turns (s : State) (k : Nat) (v : VSlot) : (s.vpush k v).turns = s.turns := rfl
@[simp] theorem State.vpush_links (s : State) (k : Nat) (v : VSlot) : (s.vpush k v).links = s.links := rfl
@[simp] theorem State.vpush_host (s : State) (k : Nat) (v : VSlot) : (s.vpush k v).host = s.host := rfl
@[simp] theorem State.vpush_srm (s : State) (k : Nat) (v : VSlot) : (s.vpush k v).srm = s.srm := rfl
@[simp] theorem State.vpush_csvs (s : State) (k : Nat) (v : VSlot) : (s.vpush k v).csvs = s.csvs := rfl
@[simp] theorem State.vpush_pwr (s : State) (k : Nat) (v : VSlot) : (s.vpush k v).pwr = s.pwr := rfl
@[simp] theorem State.vpush_out (s : State) (k : Nat) (v : VSlot) : (s.vpush k v).out = s.out := rfl

/-! ### skip -/
@[simp] theorem State.skip_pending (s : State) (k n : Nat) : (s.skip k n).pending = s.pending := rfl
@[simp] theorem State.skip_freeCtr (s : State) (k n : Nat) : (s.skip k n).freeCtr = s.freeCtr := rfl
@[simp] theorem State.skip_frames (s : State) (k n : Nat) : (s.skip k n).frames = s.frames := rfl
@[simp] theorem State.skip_arrays (s : State) (k n : Nat) : (s.skip k n).arrays = s.arrays := rfl
@[simp] theorem State.skip_aes (s : State) (k n : Nat) : (s.skip k n).aes = s.aes := rfl
@[simp] theorem State.skip_caches (s : State) (k n : Nat) : (s.skip k n).caches = s.caches := rfl
@[simp] theorem State.skip_mem (s : State) (k n : Nat) : (s.skip k n).mem = s.mem := rfl
@[simp] theorem State.skip_memPoison (s : State) (k n : Nat) : (s.skip k n).memPoison = s.memPoison := rfl
@[simp] theorem State.skip_active (s : State) (k n : Nat) : (s.skip k n).active = s.active := rfl
@[simp] theorem State.skip_pm (s : State) (k n : Nat) : (s.skip k n).pm = s.pm := rfl
@[simp] theorem State.skip_cat (s : State) (k n : Nat) : (s.skip k n).cat = s.cat := rfl
@[simp] theorem State.skip_regions (s : State) (k n : Nat) : (s.skip k n).regions = s.regions := rfl
@[simp] theorem State.skip_ev (s : State) (k n : Nat) : (s.skip k n).ev = s.ev := rfl
@[simp] theorem State.skip_sync (s : State) (k n : Nat) : (s.skip k n).sync = s.sync := rfl
@[simp] theorem State.skip_upes (s : State) (k n : Nat) : (s.skip k n).upes = s.upes := rfl
@[simp] theorem State.skip_turns (s : State) (k n : Nat) : (s.skip k n).turns = s.turns := rfl
@[simp] theorem State.skip_links (s : State) (k n : Nat) : (s.skip k n).links = s.links := rfl
@[simp] theorem State.skip_host (s : State) (k n : Nat) : (s.skip k n).host = s.host := rfl
@[simp] theorem State.skip_srm (s : State) (k n : Nat) : (s.skip k n).srm = s.srm := rfl
@[simp] theorem State.skip_csvs (s : State) (k n : Nat) : (s.skip k n).csvs = s.csvs := rfl
@[simp] theorem State.skip_pwr (s : State) (k n : Nat) : (s.skip k n).pwr = s.pwr := rfl
@[simp] theorem State.skip_out (s : State) (k n : Nat) : (s.skip k n).out = s.out := rfl

/-! ### setArr -/
@[simp] theorem State.setArr_pending (s : State) (k a : Nat) (x : TileArray) : (s.setArr k a x).pending = s.pending := rfl
@[simp] theorem State.setArr_freeCtr (s : State) (k a : Nat) (x : TileArray) : (s.setArr k a x).freeCtr = s.freeCtr := rfl
@[simp] theorem State.setArr_frames (s : State) (k a : Nat) (x : TileArray) : (s.setArr k a x).frames = s.frames := rfl
@[simp] theorem State.setArr_cores (s : State) (k a : Nat) (x : TileArray) : (s.setArr k a x).cores = s.cores := rfl
@[simp] theorem State.setArr_aes (s : State) (k a : Nat) (x : TileArray) : (s.setArr k a x).aes = s.aes := rfl
@[simp] theorem State.setArr_caches (s : State) (k a : Nat) (x : TileArray) : (s.setArr k a x).caches = s.caches := rfl
@[simp] theorem State.setArr_mem (s : State) (k a : Nat) (x : TileArray) : (s.setArr k a x).mem = s.mem := rfl
@[simp] theorem State.setArr_memPoison (s : State) (k a : Nat) (x : TileArray) : (s.setArr k a x).memPoison = s.memPoison := rfl
@[simp] theorem State.setArr_active (s : State) (k a : Nat) (x : TileArray) : (s.setArr k a x).active = s.active := rfl
@[simp] theorem State.setArr_pm (s : State) (k a : Nat) (x : TileArray) : (s.setArr k a x).pm = s.pm := rfl
@[simp] theorem State.setArr_cat (s : State) (k a : Nat) (x : TileArray) : (s.setArr k a x).cat = s.cat := rfl
@[simp] theorem State.setArr_regions (s : State) (k a : Nat) (x : TileArray) : (s.setArr k a x).regions = s.regions := rfl
@[simp] theorem State.setArr_ev (s : State) (k a : Nat) (x : TileArray) : (s.setArr k a x).ev = s.ev := rfl
@[simp] theorem State.setArr_sync (s : State) (k a : Nat) (x : TileArray) : (s.setArr k a x).sync = s.sync := rfl
@[simp] theorem State.setArr_upes (s : State) (k a : Nat) (x : TileArray) : (s.setArr k a x).upes = s.upes := rfl
@[simp] theorem State.setArr_turns (s : State) (k a : Nat) (x : TileArray) : (s.setArr k a x).turns = s.turns := rfl
@[simp] theorem State.setArr_links (s : State) (k a : Nat) (x : TileArray) : (s.setArr k a x).links = s.links := rfl
@[simp] theorem State.setArr_host (s : State) (k a : Nat) (x : TileArray) : (s.setArr k a x).host = s.host := rfl
@[simp] theorem State.setArr_srm (s : State) (k a : Nat) (x : TileArray) : (s.setArr k a x).srm = s.srm := rfl
@[simp] theorem State.setArr_csvs (s : State) (k a : Nat) (x : TileArray) : (s.setArr k a x).csvs = s.csvs := rfl
@[simp] theorem State.setArr_pwr (s : State) (k a : Nat) (x : TileArray) : (s.setArr k a x).pwr = s.pwr := rfl
@[simp] theorem State.setArr_out (s : State) (k a : Nat) (x : TileArray) : (s.setArr k a x).out = s.out := rfl

/-! ### modArr -/
@[simp] theorem State.modArr_pending (s : State) (k a : Nat) (f : TileArray → TileArray) : (s.modArr k a f).pending = s.pending := rfl
@[simp] theorem State.modArr_freeCtr (s : State) (k a : Nat) (f : TileArray → TileArray) : (s.modArr k a f).freeCtr = s.freeCtr := rfl
@[simp] theorem State.modArr_frames (s : State) (k a : Nat) (f : TileArray → TileArray) : (s.modArr k a f).frames = s.frames := rfl
@[simp] theorem State.modArr_cores (s : State) (k a : Nat) (f : TileArray → TileArray) : (s.modArr k a f).cores = s.cores := rfl
@[simp] theorem State.modArr_aes (s : State) (k a : Nat) (f : TileArray → TileArray) : (s.modArr k a f).aes = s.aes := rfl
@[simp] theorem State.modArr_caches (s : State) (k a : Nat) (f : TileArray → TileArray) : (s.modArr k a f).caches = s.caches := rfl
@[simp] theorem State.modArr_mem (s : State) (k a : Nat) (f : TileArray → TileArray) : (s.modArr k a f).mem = s.mem := rfl
@[simp] theorem State.modArr_memPoison (s : State) (k a : Nat) (f : TileArray → TileArray) : (s.modArr k a f).memPoison = s.memPoison := rfl
@[simp] theorem State.modArr_active (s : State) (k a : Nat) (f : TileArray → TileArray) : (s.modArr k a f).active = s.active := rfl
@[simp] theorem State.modArr_pm (s : State) (k a : Nat) (f : TileArray → TileArray) : (s.modArr k a f).pm = s.pm := rfl
@[simp] theorem State.modArr_cat (s : State) (k a : Nat) (f : TileArray → TileArray) : (s.modArr k a f).cat = s.cat := rfl
@[simp] theorem State.modArr_regions (s : State) (k a : Nat) (f : TileArray → TileArray) : (s.modArr k a f).regions = s.regions := rfl
@[simp] theorem State.modArr_ev (s : State) (k a : Nat) (f : TileArray → TileArray) : (s.modArr k a f).ev = s.ev := rfl
@[simp] theorem State.modArr_sync (s : State) (k a : Nat) (f : TileArray → TileArray) : (s.modArr k a f).sync = s.sync := rfl
@[simp] theorem State.modArr_upes (s : State) (k a : Nat) (f : TileArray → TileArray) : (s.modArr k a f).upes = s.upes := rfl
@[simp] theorem State.modArr_turns (s : State) (k a : Nat) (f : TileArray → TileArray) : (s.modArr k a f).turns = s.turns := rfl
@[simp] theorem State.modArr_links (s : State) (k a : Nat) (f : TileArray → TileArray) : (s.modArr k a f).links = s.links := rfl
@[simp] theorem State.modArr_host (s : State) (k a : Nat) (f : TileArray → TileArray) : (s.modArr k a f).host = s.host := rfl
@[simp] theorem State.modArr_srm (s : State) (k a : Nat) (f : TileArray → TileArray) : (s.modArr k a f).srm = s.srm := rfl
@[simp] theorem State.modArr_csvs (s : State) (k a : Nat) (f : TileArray → TileArray) : (s.modArr k a f).csvs = s.csvs := rfl
@[simp] theorem State.modArr_pwr (s : State) (k a : Nat) (f : TileArray → TileArray) : (s.modArr k a f).pwr = s.pwr := rfl
@[simp] theorem State.modArr_out (s : State) (k a : Nat) (f : TileArray → TileArray) : (s.modArr k a f).out = s.out := rfl

/-! ### setUpe -/
@[simp] theorem State.setUpe_pending (s : State) (e c : Nat) (r : UpeRun) : (s.setUpe e c r).pending = s.pending := rfl
@[simp] theorem State.setUpe_freeCtr (s : State) (e c : Nat) (r : UpeRun) : (s.setUpe e c r).freeCtr = s.freeCtr := rfl
@[simp] theorem State.setUpe_frames (s : State) (e c : Nat) (r : UpeRun) : (s.setUpe e c r).frames = s.frames := rfl
@[simp] theorem State.setUpe_cores (s : State) (e c : Nat) (r : UpeRun) : (s.setUpe e c r).cores = s.cores := rfl
@[simp] theorem State.setUpe_arrays (s : State) (e c : Nat) (r : UpeRun) : (s.setUpe e c r).arrays = s.arrays := rfl
@[simp] theorem State.setUpe_aes (s : State) (e c : Nat) (r : UpeRun) : (s.setUpe e c r).aes = s.aes := rfl
@[simp] theorem State.setUpe_caches (s : State) (e c : Nat) (r : UpeRun) : (s.setUpe e c r).caches = s.caches := rfl
@[simp] theorem State.setUpe_mem (s : State) (e c : Nat) (r : UpeRun) : (s.setUpe e c r).mem = s.mem := rfl
@[simp] theorem State.setUpe_memPoison (s : State) (e c : Nat) (r : UpeRun) : (s.setUpe e c r).memPoison = s.memPoison := rfl
@[simp] theorem State.setUpe_active (s : State) (e c : Nat) (r : UpeRun) : (s.setUpe e c r).active = s.active := rfl
@[simp] theorem State.setUpe_pm (s : State) (e c : Nat) (r : UpeRun) : (s.setUpe e c r).pm = s.pm := rfl
@[simp] theorem State.setUpe_cat (s : State) (e c : Nat) (r : UpeRun) : (s.setUpe e c r).cat = s.cat := rfl
@[simp] theorem State.setUpe_regions (s : State) (e c : Nat) (r : UpeRun) : (s.setUpe e c r).regions = s.regions := rfl
@[simp] theorem State.setUpe_ev (s : State) (e c : Nat) (r : UpeRun) : (s.setUpe e c r).ev = s.ev := rfl
@[simp] theorem State.setUpe_sync (s : State) (e c : Nat) (r : UpeRun) : (s.setUpe e c r).sync = s.sync := rfl
@[simp] theorem State.setUpe_turns (s : State) (e c : Nat) (r : UpeRun) : (s.setUpe e c r).turns = s.turns := rfl
@[simp] theorem State.setUpe_links (s : State) (e c : Nat) (r : UpeRun) : (s.setUpe e c r).links = s.links := rfl
@[simp] theorem State.setUpe_host (s : State) (e c : Nat) (r : UpeRun) : (s.setUpe e c r).host = s.host := rfl
@[simp] theorem State.setUpe_srm (s : State) (e c : Nat) (r : UpeRun) : (s.setUpe e c r).srm = s.srm := rfl
@[simp] theorem State.setUpe_csvs (s : State) (e c : Nat) (r : UpeRun) : (s.setUpe e c r).csvs = s.csvs := rfl
@[simp] theorem State.setUpe_pwr (s : State) (e c : Nat) (r : UpeRun) : (s.setUpe e c r).pwr = s.pwr := rfl
@[simp] theorem State.setUpe_out (s : State) (e c : Nat) (r : UpeRun) : (s.setUpe e c r).out = s.out := rfl

/-! ### setRegion -/
@[simp] theorem State.setRegion_pending (s : State) (d : Nat) (r : Region) : (s.setRegion d r).pending = s.pending := rfl
@[simp] theorem State.setRegion_freeCtr (s : State) (d : Nat) (r : Region) : (s.setRegion d r).freeCtr = s.freeCtr := rfl
@[simp] theorem State.setRegion_frames (s : State) (d : Nat) (r : Region) : (s.setRegion d r).frames = s.frames := rfl
@[simp] theorem State.setRegion_cores (s : State) (d : Nat) (r : Region) : (s.setRegion d r).cores = s.cores := rfl
@[simp] theorem State.setRegion_arrays (s : State) (d : Nat) (r : Region) : (s.setRegion d r).arrays = s.arrays := rfl
@[simp] theorem State.setRegion_aes (s : State) (d : Nat) (r : Region) : (s.setRegion d r).aes = s.aes := rfl
@[simp] theorem State.setRegion_caches (s : State) (d : Nat) (r : Region) : (s.setRegion d r).caches = s.caches := rfl
@[simp] theorem State.setRegion_mem (s : State) (d : Nat) (r : Region) : (s.setRegion d r).mem = s.mem := rfl
@[simp] theorem State.setRegion_memPoison (s : State) (d : Nat) (r : Region) : (s.setRegion d r).memPoison = s.memPoison := rfl
@[simp] theorem State.setRegion_active (s : State) (d : Nat) (r : Region) : (s.setRegion d r).active = s.active := rfl
@[simp] theorem State.setRegion_pm (s : State) (d : Nat) (r : Region) : (s.setRegion d r).pm = s.pm := rfl
@[simp] theorem State.setRegion_cat (s : State) (d : Nat) (r : Region) : (s.setRegion d r).cat = s.cat := rfl
@[simp] theorem State.setRegion_ev (s : State) (d : Nat) (r : Region) : (s.setRegion d r).ev = s.ev := rfl
@[simp] theorem State.setRegion_sync (s : State) (d : Nat) (r : Region) : (s.setRegion d r).sync = s.sync := rfl
@[simp] theorem State.setRegion_upes (s : State) (d : Nat) (r : Region) : (s.setRegion d r).upes = s.upes := rfl
@[simp] theorem State.setRegion_turns (s : State) (d : Nat) (r : Region) : (s.setRegion d r).turns = s.turns := rfl
@[simp] theorem State.setRegion_links (s : State) (d : Nat) (r : Region) : (s.setRegion d r).links = s.links := rfl
@[simp] theorem State.setRegion_host (s : State) (d : Nat) (r : Region) : (s.setRegion d r).host = s.host := rfl
@[simp] theorem State.setRegion_srm (s : State) (d : Nat) (r : Region) : (s.setRegion d r).srm = s.srm := rfl
@[simp] theorem State.setRegion_csvs (s : State) (d : Nat) (r : Region) : (s.setRegion d r).csvs = s.csvs := rfl
@[simp] theorem State.setRegion_pwr (s : State) (d : Nat) (r : Region) : (s.setRegion d r).pwr = s.pwr := rfl
@[simp] theorem State.setRegion_out (s : State) (d : Nat) (r : Region) : (s.setRegion d r).out = s.out := rfl

/-! ### setObj -/
@[simp] theorem State.setObj_pending (s : State) (o : Nat) (x : SyncObj) : (s.setObj o x).pending = s.pending := rfl
@[simp] theorem State.setObj_freeCtr (s : State) (o : Nat) (x : SyncObj) : (s.setObj o x).freeCtr = s.freeCtr := rfl
@[simp] theorem State.setObj_frames (s : State) (o : Nat) (x : SyncObj) : (s.setObj o x).frames = s.frames := rfl
@[simp] theorem State.setObj_cores (s : State) (o : Nat) (x : SyncObj) : (s.setObj o x).cores = s.cores := rfl
@[simp] theorem State.setObj_arrays (s : State) (o : Nat) (x : SyncObj) : (s.setObj o x).arrays = s.arrays := rfl
@[simp] theorem State.setObj_aes (s : State) (o : Nat) (x : SyncObj) : (s.setObj o x).aes = s.aes := rfl
@[simp] theorem State.setObj_caches (s : State) (o : Nat) (x : SyncObj) : (s.setObj o x).caches = s.caches := rfl
@[simp] theorem State.setObj_mem (s : State) (o : Nat) (x : SyncObj) : (s.setObj o x).mem = s.mem := rfl
@[simp] theorem State.setObj_memPoison (s : State) (o : Nat) (x : SyncObj) : (s.setObj o x).memPoison = s.memPoison := rfl
@[simp] theorem State.setObj_active (s : State) (o : Nat) (x : SyncObj) : (s.setObj o x).active = s.active := rfl
@[simp] theorem State.setObj_pm (s : State) (o : Nat) (x : SyncObj) : (s.setObj o x).pm = s.pm := rfl
@[simp] theorem State.setObj_cat (s : State) (o : Nat) (x : SyncObj) : (s.setObj o x).cat = s.cat := rfl
@[simp] theorem State.setObj_regions (s : State) (o : Nat) (x : SyncObj) : (s.setObj o x).regions = s.regions := rfl
@[simp] theorem State.setObj_ev (s : State) (o : Nat) (x : SyncObj) : (s.setObj o x).ev = s.ev := rfl
@[simp] theorem State.setObj_upes (s : State) (o : Nat) (x : SyncObj) : (s.setObj o x).upes = s.upes := rfl
@[simp] theorem State.setObj_turns (s : State) (o : Nat) (x : SyncObj) : (s.setObj o x).turns = s.turns := rfl
@[simp] theorem State.setObj_links (s : State) (o : Nat) (x : SyncObj) : (s.setObj o x).links = s.links := rfl
@[simp] theorem State.setObj_host (s : State) (o : Nat) (x : SyncObj) : (s.setObj o x).host = s.host := rfl
@[simp] theorem State.setObj_srm (s : State) (o : Nat) (x : SyncObj) : (s.setObj o x).srm = s.srm := rfl
@[simp] theorem State.setObj_csvs (s : State) (o : Nat) (x : SyncObj) : (s.setObj o x).csvs = s.csvs := rfl
@[simp] theorem State.setObj_pwr (s : State) (o : Nat) (x : SyncObj) : (s.setObj o x).pwr = s.pwr := rfl
@[simp] theorem State.setObj_out (s : State) (o : Nat) (x : SyncObj) : (s.setObj o x).out = s.out := rfl

/-! ### dropWait -/
@[simp] theorem State.dropWait_pending (s : State) (w : Waiter) : (s.dropWait w).pending = s.pending := rfl
@[simp] theorem State.dropWait_freeCtr (s : State) (w : Waiter) : (s.dropWait w).freeCtr = s.freeCtr := rfl
@[simp] theorem State.dropWait_frames (s : State) (w : Waiter) : (s.dropWait w).frames = s.frames := rfl
@[simp] theorem State.dropWait_cores (s : State) (w : Waiter) : (s.dropWait w).cores = s.cores := rfl
@[simp] theorem State.dropWait_arrays (s : State) (w : Waiter) : (s.dropWait w).arrays = s.arrays := rfl
@[simp] theorem State.dropWait_aes (s : State) (w : Waiter) : (s.dropWait w).aes = s.aes := rfl
@[simp] theorem State.dropWait_caches (s : State) (w : Waiter) : (s.dropWait w).caches = s.caches := rfl
@[simp] theorem State.dropWait_mem (s : State) (w : Waiter) : (s.dropWait w).mem = s.mem := rfl
@[simp] theorem State.dropWait_memPoison (s : State) (w : Waiter) : (s.dropWait w).memPoison = s.memPoison := rfl
@[simp] theorem State.dropWait_active (s : State) (w : Waiter) : (s.dropWait w).active = s.active := rfl
@[simp] theorem State.dropWait_pm (s : State) (w : Waiter) : (s.dropWait w).pm = s.pm := rfl
@[simp] theorem State.dropWait_cat (s : State) (w : Waiter) : (s.dropWait w).cat = s.cat := rfl
@[simp] theorem State.dropWait_regions (s : State) (w : Waiter) : (s.dropWait w).regions = s.regions := rfl
@[simp] theorem State.dropWait_ev (s : State) (w : Waiter) : (s.dropWait w).ev = s.ev := rfl
@[simp] theorem State.dropWait_upes (s : State) (w : Waiter) : (s.dropWait w).upes = s.upes := rfl
@[simp] theorem State.dropWait_turns (s : State) (w : Waiter) : (s.dropWait w).turns = s.turns := rfl
@[simp] theorem State.dropWait_links (s : State) (w : Waiter) : (s.dropWait w).links = s.links := rfl
@[simp] theorem State.dropWait_host (s : State) (w : Waiter) : (s.dropWait w).host = s.host := rfl
@[simp] theorem State.dropWait_srm (s : State) (w : Waiter) : (s.dropWait w).srm = s.srm := rfl
@[simp] theorem State.dropWait_csvs (s : State) (w : Waiter) : (s.dropWait w).csvs = s.csvs := rfl
@[simp] theorem State.dropWait_pwr (s : State) (w : Waiter) : (s.dropWait w).pwr = s.pwr := rfl
@[simp] theorem State.dropWait_out (s : State) (w : Waiter) : (s.dropWait w).out = s.out := rfl

/-! ### setPort -/
@[simp] theorem State.setPort_pending (s : State) (k : Nat) (l : List SyncOp) : (s.setPort k l).pending = s.pending := rfl
@[simp] theorem State.setPort_freeCtr (s : State) (k : Nat) (l : List SyncOp) : (s.setPort k l).freeCtr = s.freeCtr := rfl
@[simp] theorem State.setPort_frames (s : State) (k : Nat) (l : List SyncOp) : (s.setPort k l).frames = s.frames := rfl
@[simp] theorem State.setPort_cores (s : State) (k : Nat) (l : List SyncOp) : (s.setPort k l).cores = s.cores := rfl
@[simp] theorem State.setPort_arrays (s : State) (k : Nat) (l : List SyncOp) : (s.setPort k l).arrays = s.arrays := rfl
@[simp] theorem State.setPort_aes (s : State) (k : Nat) (l : List SyncOp) : (s.setPort k l).aes = s.aes := rfl
@[simp] theorem State.setPort_caches (s : State) (k : Nat) (l : List SyncOp) : (s.setPort k l).caches = s.caches := rfl
@[simp] theorem State.setPort_mem (s : State) (k : Nat) (l : List SyncOp) : (s.setPort k l).mem = s.mem := rfl
@[simp] theorem State.setPort_memPoison (s : State) (k : Nat) (l : List SyncOp) : (s.setPort k l).memPoison = s.memPoison := rfl
@[simp] theorem State.setPort_active (s : State) (k : Nat) (l : List SyncOp) : (s.setPort k l).active = s.active := rfl
@[simp] theorem State.setPort_pm (s : State) (k : Nat) (l : List SyncOp) : (s.setPort k l).pm = s.pm := rfl
@[simp] theorem State.setPort_cat (s : State) (k : Nat) (l : List SyncOp) : (s.setPort k l).cat = s.cat := rfl
@[simp] theorem State.setPort_regions (s : State) (k : Nat) (l : List SyncOp) : (s.setPort k l).regions = s.regions := rfl
@[simp] theorem State.setPort_ev (s : State) (k : Nat) (l : List SyncOp) : (s.setPort k l).ev = s.ev := rfl
@[simp] theorem State.setPort_upes (s : State) (k : Nat) (l : List SyncOp) : (s.setPort k l).upes = s.upes := rfl
@[simp] theorem State.setPort_turns (s : State) (k : Nat) (l : List SyncOp) : (s.setPort k l).turns = s.turns := rfl
@[simp] theorem State.setPort_links (s : State) (k : Nat) (l : List SyncOp) : (s.setPort k l).links = s.links := rfl
@[simp] theorem State.setPort_host (s : State) (k : Nat) (l : List SyncOp) : (s.setPort k l).host = s.host := rfl
@[simp] theorem State.setPort_srm (s : State) (k : Nat) (l : List SyncOp) : (s.setPort k l).srm = s.srm := rfl
@[simp] theorem State.setPort_csvs (s : State) (k : Nat) (l : List SyncOp) : (s.setPort k l).csvs = s.csvs := rfl
@[simp] theorem State.setPort_pwr (s : State) (k : Nat) (l : List SyncOp) : (s.setPort k l).pwr = s.pwr := rfl
@[simp] theorem State.setPort_out (s : State) (k : Nat) (l : List SyncOp) : (s.setPort k l).out = s.out := rfl

/-! ### setLport -/
@[simp] theorem State.setLport_pending (s : State) (p : Nat) (x : Port) : (s.setLport p x).pending = s.pending := rfl
@[simp] theorem State.setLport_freeCtr (s : State) (p : Nat) (x : Port) : (s.setLport p x).freeCtr = s.freeCtr := rfl
@[simp] theorem State.setLport_frames (s : State) (p : Nat) (x : Port) : (s.setLport p x).frames = s.frames := rfl
@[simp] theorem State.setLport_cores (s : State) (p : Nat) (x : Port) : (s.setLport p x).cores = s.cores := rfl
@[simp] theorem State.setLport_arrays (s : State) (p : Nat) (x : Port) : (s.setLport p x).arrays = s.arrays := rfl
@[simp] theorem State.setLport_aes (s : State) (p : Nat) (x : Port) : (s.setLport p x).aes = s.aes := rfl
@[simp] theorem State.setLport_caches (s : State) (p : Nat) (x : Port) : (s.setLport p x).caches = s.caches := rfl
@[simp] theorem State.setLport_mem (s : State) (p : Nat) (x : Port) : (s.setLport p x).mem = s.mem := rfl
@[simp] theorem State.setLport_memPoison (s : State) (p : Nat) (x : Port) : (s.setLport p x).memPoison = s.memPoison := rfl
@[simp] theorem State.setLport_active (s : State) (p : Nat) (x : Port) : (s.setLport p x).active = s.active := rfl
@[simp] theorem State.setLport_pm (s : State) (p : Nat) (x : Port) : (s.setLport p x).pm = s.pm := rfl
@[simp] theorem State.setLport_cat (s : State) (p : Nat) (x : Port) : (s.setLport p x).cat = s.cat := rfl
@[simp] theorem State.setLport_regions (s : State) (p : Nat) (x : Port) : (s.setLport p x).regions = s.regions := rfl
@[simp] theorem State.setLport_ev (s : State) (p : Nat) (x : Port) : (s.setLport p x).ev = s.ev := rfl
@[simp] theorem State.setLport_sync (s : State) (p : Nat) (x : Port) : (s.setLport p x).sync = s.sync := rfl
@[simp] theorem State.setLport_upes (s : State) (p : Nat) (x : Port) : (s.setLport p x).upes = s.upes := rfl
@[simp] theorem State.setLport_turns (s : State) (p : Nat) (x : Port) : (s.setLport p x).turns = s.turns := rfl
@[simp] theorem State.setLport_host (s : State) (p : Nat) (x : Port) : (s.setLport p x).host = s.host := rfl
@[simp] theorem State.setLport_srm (s : State) (p : Nat) (x : Port) : (s.setLport p x).srm = s.srm := rfl
@[simp] theorem State.setLport_csvs (s : State) (p : Nat) (x : Port) : (s.setLport p x).csvs = s.csvs := rfl
@[simp] theorem State.setLport_pwr (s : State) (p : Nat) (x : Port) : (s.setLport p x).pwr = s.pwr := rfl
@[simp] theorem State.setLport_out (s : State) (p : Nat) (x : Port) : (s.setLport p x).out = s.out := rfl

/-! ### modLport -/
@[simp] theorem State.modLport_pending (s : State) (p : Nat) (f : Port → Port) : (s.modLport p f).pending = s.pending := rfl
@[simp] theorem State.modLport_freeCtr (s : State) (p : Nat) (f : Port → Port) : (s.modLport p f).freeCtr = s.freeCtr := rfl
@[simp] theorem State.modLport_frames (s : State) (p : Nat) (f : Port → Port) : (s.modLport p f).frames = s.frames := rfl
@[simp] theorem State.modLport_cores (s : State) (p : Nat) (f : Port → Port) : (s.modLport p f).cores = s.cores := rfl
@[simp] theorem State.modLport_arrays (s : State) (p : Nat) (f : Port → Port) : (s.modLport p f).arrays = s.arrays := rfl
@[simp] theorem State.modLport_aes (s : State) (p : Nat) (f : Port → Port) : (s.modLport p f).aes = s.aes := rfl
@[simp] theorem State.modLport_caches (s : State) (p : Nat) (f : Port → Port) : (s.modLport p f).caches = s.caches := rfl
@[simp] theorem State.modLport_mem (s : State) (p : Nat) (f : Port → Port) : (s.modLport p f).mem = s.mem := rfl
@[simp] theorem State.modLport_memPoison (s : State) (p : Nat) (f : Port → Port) : (s.modLport p f).memPoison = s.memPoison := rfl
@[simp] theorem State.modLport_active (s : State) (p : Nat) (f : Port → Port) : (s.modLport p f).active = s.active := rfl
@[simp] theorem State.modLport_pm (s : State) (p : Nat) (f : Port → Port) : (s.modLport p f).pm = s.pm := rfl
@[simp] theorem State.modLport_cat (s : State) (p : Nat) (f : Port → Port) : (s.modLport p f).cat = s.cat := rfl
@[simp] theorem State.modLport_regions (s : State) (p : Nat) (f : Port → Port) : (s.modLport p f).regions = s.regions := rfl
@[simp] theorem State.modLport_ev (s : State) (p : Nat) (f : Port → Port) : (s.modLport p f).ev = s.ev := rfl
@[simp] theorem State.modLport_sync (s : State) (p : Nat) (f : Port → Port) : (s.modLport p f).sync = s.sync := rfl
@[simp] theorem State.modLport_upes (s : State) (p : Nat) (f : Port → Port) : (s.modLport p f).upes = s.upes := rfl
@[simp] theorem State.modLport_turns (s : State) (p : Nat) (f : Port → Port) : (s.modLport p f).turns = s.turns := rfl
@[simp] theorem State.modLport_host (s : State) (p : Nat) (f : Port → Port) : (s.modLport p f).host = s.host := rfl
@[simp] theorem State.modLport_srm (s : State) (p : Nat) (f : Port → Port) : (s.modLport p f).srm = s.srm := rfl
@[simp] theorem State.modLport_csvs (s : State) (p : Nat) (f : Port → Port) : (s.modLport p f).csvs = s.csvs := rfl
@[simp] theorem State.modLport_pwr (s : State) (p : Nat) (f : Port → Port) : (s.modLport p f).pwr = s.pwr := rfl
@[simp] theorem State.modLport_out (s : State) (p : Nat) (f : Port → Port) : (s.modLport p f).out = s.out := rfl

/-! ### setStages -/
@[simp] theorem State.setStages_pending (s : State) (d c : Nat) (l : List Stage) : (s.setStages d c l).pending = s.pending := rfl
@[simp] theorem State.setStages_freeCtr (s : State) (d c : Nat) (l : List Stage) : (s.setStages d c l).freeCtr = s.freeCtr := rfl
@[simp] theorem State.setStages_frames (s : State) (d c : Nat) (l : List Stage) : (s.setStages d c l).frames = s.frames := rfl
@[simp] theorem State.setStages_cores (s : State) (d c : Nat) (l : List Stage) : (s.setStages d c l).cores = s.cores := rfl
@[simp] theorem State.setStages_arrays (s : State) (d c : Nat) (l : List Stage) : (s.setStages d c l).arrays = s.arrays := rfl
@[simp] theorem State.setStages_aes (s : State) (d c : Nat) (l : List Stage) : (s.setStages d c l).aes = s.aes := rfl
@[simp] theorem State.setStages_caches (s : State) (d c : Nat) (l : List Stage) : (s.setStages d c l).caches = s.caches := rfl
@[simp] theorem State.setStages_mem (s : State) (d c : Nat) (l : List Stage) : (s.setStages d c l).mem = s.mem := rfl
@[simp] theorem State.setStages_memPoison (s : State) (d c : Nat) (l : List Stage) : (s.setStages d c l).memPoison = s.memPoison := rfl
@[simp] theorem State.setStages_active (s : State) (d c : Nat) (l : List Stage) : (s.setStages d c l).active = s.active := rfl
@[simp] theorem State.setStages_pm (s : State) (d c : Nat) (l : List Stage) : (s.setStages d c l).pm = s.pm := rfl
@[simp] theorem State.setStages_cat (s : State) (d c : Nat) (l : List Stage) : (s.setStages d c l).cat = s.cat := rfl
@[simp] theorem State.setStages_regions (s : State) (d c : Nat) (l : List Stage) : (s.setStages d c l).regions = s.regions := rfl
@[simp] theorem State.setStages_ev (s : State) (d c : Nat) (l : List Stage) : (s.setStages d c l).ev = s.ev := rfl
@[simp] theorem State.setStages_sync (s : State) (d c : Nat) (l : List Stage) : (s.setStages d c l).sync = s.sync := rfl
@[simp] theorem State.setStages_upes (s : State) (d c : Nat) (l : List Stage) : (s.setStages d c l).upes = s.upes := rfl
@[simp] theorem State.setStages_turns (s : State) (d c : Nat) (l : List Stage) : (s.setStages d c l).turns = s.turns := rfl
@[simp] theorem State.setStages_host (s : State) (d c : Nat) (l : List Stage) : (s.setStages d c l).host = s.host := rfl
@[simp] theorem State.setStages_srm (s : State) (d c : Nat) (l : List Stage) : (s.setStages d c l).srm = s.srm := rfl
@[simp] theorem State.setStages_csvs (s : State) (d c : Nat) (l : List Stage) : (s.setStages d c l).csvs = s.csvs := rfl
@[simp] theorem State.setStages_pwr (s : State) (d c : Nat) (l : List Stage) : (s.setStages d c l).pwr = s.pwr := rfl
@[simp] theorem State.setStages_out (s : State) (d c : Nat) (l : List Stage) : (s.setStages d c l).out = s.out := rfl

/-! ### setRing -/
@[simp] theorem State.setRing_pending (s : State) (f : Nat) (x : RingSt) : (s.setRing f x).pending = s.pending := rfl
@[simp] theorem State.setRing_freeCtr (s : State) (f : Nat) (x : RingSt) : (s.setRing f x).freeCtr = s.freeCtr := rfl
@[simp] theorem State.setRing_frames (s : State) (f : Nat) (x : RingSt) : (s.setRing f x).frames = s.frames := rfl
@[simp] theorem State.setRing_cores (s : State) (f : Nat) (x : RingSt) : (s.setRing f x).cores = s.cores := rfl
@[simp] theorem State.setRing_arrays (s : State) (f : Nat) (x : RingSt) : (s.setRing f x).arrays = s.arrays := rfl
@[simp] theorem State.setRing_aes (s : State) (f : Nat) (x : RingSt) : (s.setRing f x).aes = s.aes := rfl
@[simp] theorem State.setRing_caches (s : State) (f : Nat) (x : RingSt) : (s.setRing f x).caches = s.caches := rfl
@[simp] theorem State.setRing_mem (s : State) (f : Nat) (x : RingSt) : (s.setRing f x).mem = s.mem := rfl
@[simp] theorem State.setRing_memPoison (s : State) (f : Nat) (x : RingSt) : (s.setRing f x).memPoison = s.memPoison := rfl
@[simp] theorem State.setRing_active (s : State) (f : Nat) (x : RingSt) : (s.setRing f x).active = s.active := rfl
@[simp] theorem State.setRing_pm (s : State) (f : Nat) (x : RingSt) : (s.setRing f x).pm = s.pm := rfl
@[simp] theorem State.setRing_cat (s : State) (f : Nat) (x : RingSt) : (s.setRing f x).cat = s.cat := rfl
@[simp] theorem State.setRing_regions (s : State) (f : Nat) (x : RingSt) : (s.setRing f x).regions = s.regions := rfl
@[simp] theorem State.setRing_sync (s : State) (f : Nat) (x : RingSt) : (s.setRing f x).sync = s.sync := rfl
@[simp] theorem State.setRing_upes (s : State) (f : Nat) (x : RingSt) : (s.setRing f x).upes = s.upes := rfl
@[simp] theorem State.setRing_turns (s : State) (f : Nat) (x : RingSt) : (s.setRing f x).turns = s.turns := rfl
@[simp] theorem State.setRing_links (s : State) (f : Nat) (x : RingSt) : (s.setRing f x).links = s.links := rfl
@[simp] theorem State.setRing_host (s : State) (f : Nat) (x : RingSt) : (s.setRing f x).host = s.host := rfl
@[simp] theorem State.setRing_srm (s : State) (f : Nat) (x : RingSt) : (s.setRing f x).srm = s.srm := rfl
@[simp] theorem State.setRing_csvs (s : State) (f : Nat) (x : RingSt) : (s.setRing f x).csvs = s.csvs := rfl
@[simp] theorem State.setRing_pwr (s : State) (f : Nat) (x : RingSt) : (s.setRing f x).pwr = s.pwr := rfl
@[simp] theorem State.setRing_out (s : State) (f : Nat) (x : RingSt) : (s.setRing f x).out = s.out := rfl

/-! ## Reading back -/

/-- A core's control unit read after it was changed. -/
@[simp] theorem State.core_modCore_self (s : State) (k : Nat) (f : Core → Core) : (s.modCore k f).core k = f (s.core k) := by
  simp [State.modCore, State.setCore, State.core]
/-- Changing one core leaves every other core. -/
theorem State.core_modCore_ne (s : State) (k j : Nat) (f : Core → Core) (h : j ≠ k) : (s.modCore k f).core j = s.core j := by
  simp only [State.modCore, State.setCore, State.core]; exact tget_tset_ne s.cores k j _ _ h
/-- Two changes of one core in turn are one change. -/
theorem State.modCore_modCore (s : State) (k : Nat) (f g : Core → Core) : (s.modCore k f).modCore k g = s.modCore k (fun c => g (f c)) := by
  simp [State.modCore, State.setCore, State.core]
/-- A frame read after it was changed. -/
@[simp] theorem State.frame_modFrame_self (s : State) (f : FrameId) (g : Frame → Frame) : (s.modFrame f g).frame f = g (s.frame f) := by
  simp [State.modFrame, State.setFrame, State.frame]
/-- Changing one frame leaves every other frame. -/
theorem State.frame_modFrame_ne (s : State) (f f' : FrameId) (g : Frame → Frame) (h : f' ≠ f) : (s.modFrame f g).frame f' = s.frame f' := by
  simp only [State.modFrame, State.setFrame, State.frame]; exact tget_tset_ne s.frames f f' _ _ h
/-- Reset values depend on no frame. -/
@[simp] theorem State.resetOf_modFrame (s : State) (f f' : FrameId) (g : Frame → Frame) (o : Nat) : (s.modFrame f g).resetOf f' o = s.resetOf f' o := rfl
/-- A register read after it was stored. -/
@[simp] theorem State.reg_setReg_self (s : State) (f : FrameId) (off v : Nat) : (s.setReg f off v).reg f off = v % 2 ^ 32 := by
  simp [State.setReg, State.reg, Frame.setReg]
/-- Storing one register leaves every other register of the frame. -/
theorem State.reg_setReg_off (s : State) (f : FrameId) (off o v : Nat) (h : o ≠ off) : (s.setReg f off v).reg f o = s.reg f o := by
  simp only [State.setReg, State.reg, State.frame_modFrame_self, State.resetOf_modFrame, Frame.setReg]; rw [tget_tset_ne _ _ _ _ _ h]
/-- Storing a register leaves the registers of every other frame. -/
theorem State.reg_setReg_frame (s : State) (f f' : FrameId) (off o v : Nat) (h : f' ≠ f) : (s.setReg f off v).reg f' o = s.reg f' o := by
  simp only [State.setReg, State.reg, State.resetOf_modFrame, State.frame_modFrame_ne s f f' _ h]
/-- An array read after it was changed. -/
@[simp] theorem State.arr_modArr_self (s : State) (k a : Nat) (f : TileArray → TileArray) : (s.modArr k a f).arr k a = f (s.arr k a) := by
  simp [State.modArr, State.setArr, State.arr]
/-- An access engine read after it was changed. -/
@[simp] theorem State.ae_modAe_self (s : State) (k : Nat) (f : Ae → Ae) : (s.modAe k f).ae k = f (s.ae k) := by
  simp [State.modAe, State.setAe, State.ae]
/-- A cache read after it was changed. -/
@[simp] theorem State.cache_modCache_self (s : State) (k : Nat) (f : MemCache → MemCache) : (s.modCache k f).cache k = f (s.cache k) := by
  simp [State.modCache, State.setCache, State.cache]

/-! ## What a change of a core, a frame, an array or an engine leaves -/

@[simp] theorem State.frame_modCore (s : State) (k : Nat) (f : Core → Core) (g : FrameId) : (s.modCore k f).frame g = s.frame g := rfl
@[simp] theorem State.reg_modCore (s : State) (k : Nat) (f : Core → Core) (g : FrameId) (o : Nat) : (s.modCore k f).reg g o = s.reg g o := rfl
@[simp] theorem State.stat_modCore (s : State) (k : Nat) (f : Core → Core) (j : Nat) : (s.modCore k f).stat j = s.stat j := rfl
@[simp] theorem State.preds_modCore (s : State) (k : Nat) (f : Core → Core) (j : Nat) : (s.modCore k f).preds j = s.preds j := rfl
@[simp] theorem State.predBit_modCore (s : State) (k : Nat) (f : Core → Core) (j p : Nat) : (s.modCore k f).predBit j p = s.predBit j p := rfl
@[simp] theorem State.vlen_modCore (s : State) (k : Nat) (f : Core → Core) (j : Nat) : (s.modCore k f).vlen j = s.vlen j := rfl
@[simp] theorem State.core_modFrame (s : State) (f : FrameId) (g : Frame → Frame) (k : Nat) : (s.modFrame f g).core k = s.core k := rfl
@[simp] theorem State.core_setReg (s : State) (f : FrameId) (o v k : Nat) : (s.setReg f o v).core k = s.core k := rfl
@[simp] theorem State.core_setStat (s : State) (j v k : Nat) : (s.setStat j v).core k = s.core k := rfl
@[simp] theorem State.core_modAe (s : State) (j k : Nat) (f : Ae → Ae) : (s.modAe j f).core k = s.core k := rfl
@[simp] theorem State.frame_modAe (s : State) (j : Nat) (f : Ae → Ae) (g : FrameId) : (s.modAe j f).frame g = s.frame g := rfl
@[simp] theorem State.core_modArr (s : State) (j a k : Nat) (f : TileArray → TileArray) : (s.modArr j a f).core k = s.core k := rfl
@[simp] theorem State.frame_modArr (s : State) (j a : Nat) (f : TileArray → TileArray) (g : FrameId) : (s.modArr j a f).frame g = s.frame g := rfl

/-! ## Updates that look before they write -/

/-- Adding to a counter touches only the frames. -/
@[simp] theorem State.bump_core (s : State) (f : FrameId) (o n k : Nat) : (s.bump f o n).core k = s.core k := by
  unfold State.bump; split <;> rfl
@[simp] theorem State.bump_mem (s : State) (f : FrameId) (o n : Nat) : (s.bump f o n).mem = s.mem := by
  unfold State.bump; split <;> rfl
/-- Activity of a context touches only when it was last active. -/
@[simp] theorem State.act_core (s : State) (k j : Nat) : (s.act k).core j = s.core j := by
  unfold State.act; split <;> rfl
@[simp] theorem State.act_mem (s : State) (k : Nat) : (s.act k).mem = s.mem := by
  unfold State.act; split <;> rfl
@[simp] theorem State.act_frames (s : State) (k : Nat) : (s.act k).frames = s.frames := by
  unfold State.act; split <;> rfl
/-- P0 ignores writes (R134). -/
@[simp] theorem State.setPred_zero (s : State) (k : Nat) (b : Bool) : s.setPred k 0 b = s := rfl
/-- Writing a predicate leaves every core. -/
@[simp] theorem State.setPred_core (s : State) (k p : Nat) (b : Bool) (j : Nat) : (s.setPred k p b).core j = s.core j := by
  unfold State.setPred; split <;> rfl

end Sys2Proof.Machine
end

