-- ==== Sys2Proof/Laws/Events.lean ====
section
/-! SUPPORT. What raising an event can do: the fabric's buffers and the frames' flags and counters change, nothing else. -/
namespace Sys2Proof.Machine

/-- Two states agree on everything but the event fabric and the frames. -/
def State.sameButEvents (s t : State) : Prop := t = { s with ev := t.ev, frames := t.frames }

theorem State.sameButEvents_refl (s : State) : s.sameButEvents s := rfl
theorem State.sameButEvents_trans {s t u : State} (h : s.sameButEvents t) (g : t.sameButEvents u) : s.sameButEvents u := by
  unfold State.sameButEvents at *; rw [g, h]
theorem State.sameButEvents_ite {s a b : State} {c : Prop} [Decidable c] (h : s.sameButEvents a) (g : s.sameButEvents b) : s.sameButEvents (if c then a else b) := by
  split <;> assumption
theorem State.sameButEvents_setFrame (s : State) (f : FrameId) (fr : Frame) : s.sameButEvents (s.setFrame f fr) := rfl
theorem State.sameButEvents_raise (s : State) (f : FrameId) (o b : Nat) : s.sameButEvents (s.raise f o b) := rfl
theorem State.sameButEvents_setReg (s : State) (f : FrameId) (o v : Nat) : s.sameButEvents (s.setReg f o v) := rfl
theorem State.sameButEvents_bump (s : State) (f : FrameId) (o n : Nat) : s.sameButEvents (s.bump f o n) := by
  unfold State.bump; split <;> rfl
theorem State.sameButEvents_setHopBuf (s : State) (h : Nat) (l : List EvRec) : s.sameButEvents (s.setHopBuf h l) := by
  unfold State.setHopBuf; split <;> rfl

/-- Changing the fabric itself. -/
theorem State.sameButEvents_ev (s : State) (e : EventSt) : s.sameButEvents { s with ev := e } := rfl

/-- Moving outbox entries on touches the fabric alone. -/
theorem State.sameButEvents_offer (h n : Nat) : ∀ s : State, s.sameButEvents (s.offer h n) := by
  induction n with
  | zero => intro s; rfl
  | succ n ih =>
    intro s
    unfold State.offer
    split
    · rfl
    · split
      · exact State.sameButEvents_trans (State.sameButEvents_trans (State.sameButEvents_ev s _) (State.sameButEvents_setHopBuf _ h _)) (ih _)
      · rfl

/-- Raising an event changes the fabric and the frames, and nothing else. -/
theorem State.sameButEvents_event (s : State) (src : FrameId) (code ctx : Nat) (acc : BitVec 16) (p : List Byte) : s.sameButEvents (s.event src code ctx acc p) := by
  unfold State.event
  simp only
  split
  · split
    · exact State.sameButEvents_trans (State.sameButEvents_ev s _) (State.sameButEvents_setHopBuf _ _ _)
    · exact State.sameButEvents_trans (State.sameButEvents_trans (State.sameButEvents_ev s _) (State.sameButEvents_bump _ _ _ _)) (State.sameButEvents_raise _ _ _ _)
  · have inner : ∀ c : Prop, [Decidable c] → ∀ e : EventSt, s.sameButEvents (if c then ({ s with ev := e } : State).raise (evtFrame (hopOf src)) 0 2 else { s with ev := e }) := by
      intro c _ e
      exact State.sameButEvents_ite (State.sameButEvents_trans (State.sameButEvents_ev s _) (State.sameButEvents_raise _ _ _ _)) (State.sameButEvents_ev s _)
    exact State.sameButEvents_ite
      (State.sameButEvents_trans (State.sameButEvents_trans (inner _ _) (State.sameButEvents_offer _ _ _)) (State.sameButEvents_raise _ _ _ _))
      (State.sameButEvents_trans (inner _ _) (State.sameButEvents_offer _ _ _))

/-- The flag first, then the event. -/
theorem State.sameButEvents_flagEvent (s : State) (f : FrameId) (o b code ctx : Nat) (p : List Byte) : s.sameButEvents (s.flagEvent f o b code ctx p) := by
  unfold State.flagEvent
  exact State.sameButEvents_trans (State.sameButEvents_raise s f o b) (State.sameButEvents_event _ _ _ _ _ _)

@[simp] theorem State.event_mem (s : State) (src : FrameId) (code ctx : Nat) (acc : BitVec 16) (p : List Byte) : (s.event src code ctx acc p).mem = s.mem := by
  rw [s.sameButEvents_event src code ctx acc p]
@[simp] theorem State.event_cores (s : State) (src : FrameId) (code ctx : Nat) (acc : BitVec 16) (p : List Byte) : (s.event src code ctx acc p).cores = s.cores := by
  rw [s.sameButEvents_event src code ctx acc p]
@[simp] theorem State.event_cat (s : State) (src : FrameId) (code ctx : Nat) (acc : BitVec 16) (p : List Byte) : (s.event src code ctx acc p).cat = s.cat := by
  rw [s.sameButEvents_event src code ctx acc p]
@[simp] theorem State.event_sync (s : State) (src : FrameId) (code ctx : Nat) (acc : BitVec 16) (p : List Byte) : (s.event src code ctx acc p).sync = s.sync := by
  rw [s.sameButEvents_event src code ctx acc p]
@[simp] theorem State.event_pm (s : State) (src : FrameId) (code ctx : Nat) (acc : BitVec 16) (p : List Byte) : (s.event src code ctx acc p).pm = s.pm := by
  rw [s.sameButEvents_event src code ctx acc p]
@[simp] theorem State.event_pending (s : State) (src : FrameId) (code ctx : Nat) (acc : BitVec 16) (p : List Byte) : (s.event src code ctx acc p).pending = s.pending := by
  rw [s.sameButEvents_event src code ctx acc p]

end Sys2Proof.Machine
end

