-- ==== Sys2Proof/Laws/Issue.lean ====
section
/-! SUPPORT. What issuing a core instruction does: stacks that hold the operands need no spill or fill; an instruction that nothing stops runs its effect; a guard that is false moves the PC only; an unmasked cause enters the supervisor. -/
namespace Sys2Proof.Machine

/-- Operands on the core and results that fit: the integer stack is left as it is. -/
theorem State.prepI_ready (s : State) (k p q : Nat) (lossy : Bool) (n : Nat) (h1 : p ≤ (s.core k).istk.length) (h2 : (s.core k).istk.length - p + q ≤ 32) :
    s.prepI k p q lossy n = ⟨s, false, false⟩ := by
  cases n with
  | zero => rfl
  | succ n => simp only [State.prepI, Nat.not_lt.mpr h1, Nat.not_lt.mpr h2, if_false]

/-- The same of the V-stack. -/
theorem State.prepV_ready (s : State) (k p q : Nat) (lossy : Bool) (n : Nat) (h1 : p ≤ (s.core k).vstk.length) (h2 : (s.core k).vstk.length - p + q ≤ 16) :
    s.prepV k p q lossy n = ⟨s, false, false⟩ := by
  cases n with
  | zero => rfl
  | succ n => simp only [State.prepV, Nat.not_lt.mpr h1, Nat.not_lt.mpr h2, if_false]

/-- Both stacks ready: nothing moves. -/
theorem State.prep_ready (s : State) (k : Nat) (op : CoreOp) (lossy : Bool) (h : s.onCore k op.ipop op.ipush op.vpop op.vpush) :
    s.prep k op lossy = (⟨s, false, false⟩, ⟨s, false, false⟩) := by
  obtain ⟨h1, h2, h3, h4⟩ := h
  simp only [State.prep, State.prepI_ready s k _ _ lossy 16 h1 h2, State.prepV_ready s k _ _ lossy 40 h3 h4]
  simp

/-- An instruction with nothing in its way runs its effect on the issued state, and the PC moves on unless the effect set it. -/
theorem State.issue_runs (s : State) (i : Issue) (ins : Instr) (op : CoreOp) (h : s.issuesNow i) (hr : op.reserved = false)
    (hl : op.len = 16 → (s.core i.core.val).pc.toNat % 16 = 0) (hs : s.onCore i.core.val op.ipop op.ipush op.vpop op.vpush)
    (hp : op.pre = []) (hf : op.faults s = []) (hw : op.wait s = none) :
    s.issue i ins op = (let t := op.run (s.issued i.core.val i.core.isLt); if op.ownPc then t else t.skip i.core.val op.len) := by
  obtain ⟨h1, h2, h3, h4⟩ := h
  have hl' : ¬ (op.len = 16 ∧ (s.core i.core.val).pc.toNat % 16 ≠ 0) := fun x => x.2 (hl x.1)
  simp only [State.issue, h1, State.takeBoundary, h2, h3, hr, h4, State.prep_ready s _ op false hs, hp, hf, State.perform, hw]
  simp [hl', lowest]

/-- An instruction whose guard is false is issued and moves the PC only (R132). -/
theorem State.issue_skips (s : State) (i : Issue) (ins : Instr) (op : CoreOp) (h1 : s.atBoundary i.core.val = true)
    (h2 : s.boundaryCause i.core.val = none) (h3 : (s.core i.core.val).tileHold = false) (hr : op.reserved = false)
    (hl : op.len = 16 → (s.core i.core.val).pc.toNat % 16 = 0) (hg : (s.predBit i.core.val i.g.toNat == i.s) = true) :
    s.issue i ins op = (s.issued i.core.val i.core.isLt).skip i.core.val op.len := by
  have hl' : ¬ (op.len = 16 ∧ (s.core i.core.val).pc.toNat % 16 ≠ 0) := fun x => x.2 (hl x.1)
  simp only [State.issue, h1, State.takeBoundary, h2, h3, hr, hg]
  simp [hl']

/-- The lowest cause of the fixed ones and those the operands show governs an instruction whose operands are on the core (R351). -/
theorem State.issue_governed (s : State) (i : Issue) (ins : Instr) (op : CoreOp) (c : Cause) (h : s.issuesNow i) (hr : op.reserved = false)
    (hl : op.len = 16 → (s.core i.core.val).pc.toNat % 16 = 0) (hs : s.onCore i.core.val op.ipop op.ipush op.vpop op.vpush)
    (hc : lowest (op.pre ++ op.faults s) = some c) :
    s.issue i ins op = s.govern s i.core.val i.core.isLt ins op c := by
  obtain ⟨h1, h2, h3, h4⟩ := h
  have hl' : ¬ (op.len = 16 ∧ (s.core i.core.val).pc.toNat % 16 ≠ 0) := fun x => x.2 (hl x.1)
  simp only [State.issue, h1, State.takeBoundary, h2, h3, hr, h4, State.prep_ready s _ op false hs, hc]
  simp [hl']

/-- A core that cannot come to issue leaves the state as it is (log 3). -/
theorem State.issue_held (s : State) (i : Issue) (ins : Instr) (op : CoreOp) (h : s.atBoundary i.core.val = false) : s.issue i ins op = s := by
  simp only [State.issue, h]; rfl

/-- A cause due at the boundary is taken before the instruction issues (R351 items 1 and 2). -/
theorem State.issue_boundary (s : State) (i : Issue) (ins : Instr) (op : CoreOp) (c : Cause) (h1 : s.atBoundary i.core.val = true)
    (h2 : s.boundaryCause i.core.val = some c) :
    s.issue i ins op = ((s.cancelWait i.core.val i.core.isLt).unpend i.core.val c.code).enter i.core.val c
      (((s.cancelWait i.core.val i.core.isLt).unpend i.core.val c.code).core i.core.val).pc := by
  simp only [State.issue, h1, State.takeBoundary, h2]; rfl

/-- Issuing leaves the stacks of the core. -/
@[simp] theorem State.issued_istk (s : State) (k : Nat) (h : k < 128) : ((s.issued k h).core k).istk = (s.core k).istk := by
  simp [State.issued, State.cancelWait, State.core_modCore_self]; rfl
@[simp] theorem State.issued_vstk (s : State) (k : Nat) (h : k < 128) : ((s.issued k h).core k).vstk = (s.core k).vstk := by
  simp [State.issued, State.cancelWait, State.core_modCore_self]; rfl
/-- Issuing leaves the PC. -/
@[simp] theorem State.issued_pc (s : State) (k : Nat) (h : k < 128) : ((s.issued k h).core k).pc = (s.core k).pc := by
  simp [State.issued, State.cancelWait, State.core_modCore_self]; rfl
/-- Issuing leaves device memory. -/
@[simp] theorem State.issued_mem (s : State) (k : Nat) (h : k < 128) : (s.issued k h).mem = s.mem := by
  simp [State.issued, State.cancelWait]

/-! ## What the operations of the plain families leave -/

/-- Issuing does to the core what no stack operation depends on. -/
theorem State.after_of_core (s : State) (i : Issue) (f : Core → Core) (ints : List W64) (slots : List VSlot) (len : Nat)
    (h : f ((s.issued i.core.val i.core.isLt).core i.core.val) = { (s.issued i.core.val i.core.isLt).core i.core.val with istk := ints, vstk := slots }) :
    ((s.issued i.core.val i.core.isLt).modCore i.core.val f).skip i.core.val len = s.after i ints slots len := by
  simp only [State.after, State.landed, State.withInts, State.withSlots, State.skip, State.modCore_modCore]
  simp only [State.modCore, h]

/-- Popping `n` integers and pushing one. -/
theorem State.after_ipop_ipush (s : State) (i : Issue) (n : Nat) (v : W64) (len : Nat) :
    (((s.issued i.core.val i.core.isLt).ipop i.core.val n).ipush i.core.val v).skip i.core.val len
      = s.after i (v :: (s.core i.core.val).istk.drop n) (s.core i.core.val).vstk len := by
  simp only [State.ipop, State.ipush, State.modCore_modCore]
  exact State.after_of_core s i _ _ _ len (by rw [← State.issued_istk s i.core.val i.core.isLt, ← State.issued_vstk s i.core.val i.core.isLt])

/-- Pushing an integer. -/
theorem State.after_ipush (s : State) (i : Issue) (v : W64) (len : Nat) :
    ((s.issued i.core.val i.core.isLt).ipush i.core.val v).skip i.core.val len
      = s.after i (v :: (s.core i.core.val).istk) (s.core i.core.val).vstk len :=
  State.after_of_core s i _ _ _ len (by rw [← State.issued_istk s i.core.val i.core.isLt, ← State.issued_vstk s i.core.val i.core.isLt])

/-- Doing nothing more. -/
theorem State.after_nothing (s : State) (i : Issue) (len : Nat) :
    (s.issued i.core.val i.core.isLt).skip i.core.val len = s.after i (s.core i.core.val).istk (s.core i.core.val).vstk len := by
  simp only [State.after, State.landed, State.withInts, State.withSlots, State.skip, State.modCore_modCore]
  simp only [State.modCore]
  rw [← State.issued_istk s i.core.val i.core.isLt, ← State.issued_vstk s i.core.val i.core.isLt]

/-- THE INTEGER TWO-OPERAND FORM, whole: with the operands on the core the result replaces them, and nothing else changes but what issuing changes. -/
theorem State.coreStep_int2 (s : State) (i : Issue) (ins : Instr) (f : W64 → W64 → W64) (a b : W64) (r : List W64)
    (h : s.issuesNow i) (hs : s.onCore i.core.val 2 1 0 0) (hl : (s.core i.core.val).istk = b :: a :: r) :
    s.coreStep i ins (int2 i f) = .next (s.after i (f a b :: r) (s.core i.core.val).vstk) := by
  simp only [State.coreStep]
  rw [State.issue_runs s i ins (int2 i f) h rfl (by simp [int2]) hs rfl rfl rfl]
  simp only [int2, State.after_ipop_ipush, State.itop, State.issued_istk, hl]
  simp

/-- The one-operand form. -/
theorem State.coreStep_int1 (s : State) (i : Issue) (ins : Instr) (f : W64 → W64) (a : W64) (r : List W64)
    (h : s.issuesNow i) (hs : s.onCore i.core.val 1 1 0 0) (hl : (s.core i.core.val).istk = a :: r) :
    s.coreStep i ins (int1 i f) = .next (s.after i (f a :: r) (s.core i.core.val).vstk) := by
  simp only [State.coreStep]
  rw [State.issue_runs s i ins (int1 i f) h rfl (by simp [int1]) hs rfl rfl rfl]
  simp only [int1, State.after_ipop_ipush, State.itop, State.issued_istk, hl]
  simp

end Sys2Proof.Machine
end

