-- ==== Sys2Proof/Laws/Memory.lean ====
section
/-! SUPPORT. What reading and writing device memory and core data memory can do: the bytes that change, the canonical form kept, everything else left. -/
namespace Sys2Proof.Machine

/-! ## Reads at the stack controllers -/

/-- A piece read from unpoisoned memory outside every fence, at a stack controller that is not frozen. -/
theorem State.readPiece_clean (s : State) (pa n : Nat) (h : s.memPoison = []) (hf : ∀ d, (s.region d).fenced = false) (hk : ∀ a, s.stackHeld a = false) :
    s.readPiece pa n = ⟨s, memBytes s.mem pa n, false, none⟩ := by
  simp [State.readPiece, hf, h, hk, setHas]

/-- Pieces read from unpoisoned memory outside every fence, at stack controllers that are not frozen, are clean, change nothing and stop at no fence. -/
theorem State.readPieces_clean (s : State) (h : s.memPoison = []) (hf : ∀ d, (s.region d).fenced = false) (hk : ∀ a, s.stackHeld a = false) :
    ∀ l, (s.readPieces l).poison = false ∧ (s.readPieces l).st = s ∧ (s.readPieces l).hit = none := by
  intro l
  induction l with
  | nil => exact ⟨rfl, rfl, rfl⟩
  | cons x r ih =>
    obtain ⟨pa, n⟩ := x
    simp only [State.readPieces, s.readPiece_clean pa n h hf hk, Rd.then]
    exact ⟨by simpa using ih.1, ih.2.1, by simpa using ih.2.2⟩

/-- A read of unpoisoned memory with no region fenced and no stack controller frozen is unpoisoned and changes nothing. -/
theorem State.readPhys_clean (src : FrameId) (ctx pa n : Nat) (s : State) (h : s.memPoison = []) (hf : ∀ d, (s.region d).fenced = false) (hk : ∀ a, s.stackHeld a = false) :
    (s.readPhys src ctx pa n).poison = false ∧ (s.readPhys src ctx pa n).st = s := by
  obtain ⟨hp, hs, hh⟩ := s.readPieces_clean h hf hk (sectorPieces pa n)
  simp only [State.readPhys, Rd.report, hh, State.fenceReport]
  exact ⟨hp, hs⟩

/-- Pieces read change at most the count of free values, and note that a frozen stack controller held one. -/
theorem State.readPieces_st : ∀ (l : List (Nat × Nat)) (s : State),
    (s.readPieces l).st = { s with freeCtr := (s.readPieces l).st.freeCtr, blocked := (s.readPieces l).st.blocked } := by
  intro l
  induction l with
  | nil => intro s; rfl
  | cons x r ih =>
    intro s
    obtain ⟨pa, n⟩ := x
    simp only [State.readPieces, Rd.then]
    rw [ih]
    have e : (s.readPiece pa n).st = { s with freeCtr := (s.readPiece pa n).st.freeCtr, blocked := (s.readPiece pa n).st.blocked } := by
      unfold State.readPiece; (repeat' split) <;> rfl
    rw [e]

/-- A fence's report leaves device memory. -/
@[simp] theorem State.fenceReport_mem (s : State) (src : FrameId) (ctx : Nat) (o : Option Nat) : (s.fenceReport src ctx o).mem = s.mem := by
  cases o <;> simp [State.fenceReport, State.fenceHit]
/-- A fence's report leaves the cores. -/
@[simp] theorem State.fenceReport_cores (s : State) (src : FrameId) (ctx : Nat) (o : Option Nat) : (s.fenceReport src ctx o).cores = s.cores := by
  cases o <;> simp [State.fenceReport, State.fenceHit]

@[simp] theorem State.readPhys_mem (s : State) (src : FrameId) (ctx pa n : Nat) : (s.readPhys src ctx pa n).st.mem = s.mem := by
  simp only [State.readPhys, Rd.report, State.fenceReport_mem]; rw [State.readPieces_st]
@[simp] theorem State.readPhys_cores (s : State) (src : FrameId) (ctx pa n : Nat) : (s.readPhys src ctx pa n).st.cores = s.cores := by
  simp only [State.readPhys, Rd.report, State.fenceReport_cores]; rw [State.readPieces_st]

/-! ## Writes at the stack controllers -/

/-- A write within a sector stores its bytes, or a fence discards it, or a frozen stack controller does not accept it. -/
theorem State.writePart_mem (s : State) (w : WPart) :
    (s.writePart w).mem = if (s.region (regionOfPa w.pa)).fenced || s.stackHeld w.pa then s.mem else memPut s.mem w.pa w.data := by
  unfold State.writePart
  cases (s.region (regionOfPa w.pa)).fenced <;> cases s.stackHeld w.pa <;> rfl
@[simp] theorem State.writePart_cores (s : State) (w : WPart) : (s.writePart w).cores = s.cores := by
  unfold State.writePart; (repeat' split) <;> rfl
@[simp] theorem State.writePart_regions (s : State) (w : WPart) : (s.writePart w).regions = s.regions := by
  unfold State.writePart; (repeat' split) <;> rfl

/-- A command that no frozen stack controller holds has its effect. -/
theorem State.served_go (s : State) (f : State → State) (h : (f { s with blocked := false }).blocked = false) : s.served f = f s := by
  simp [State.served, h]
/-- A command that a frozen stack controller holds changes nothing. -/
theorem State.served_held (s : State) (f : State → State) (h : (f { s with blocked := false }).blocked = true) : s.served f = s := by
  simp [State.served, h]

/-- The parts of a request leave every core. -/
@[simp] theorem State.writeParts_cores : ∀ (l : List WPart) (s : State), (s.writeParts l).cores = s.cores := by
  intro l
  induction l with
  | nil => intro s; rfl
  | cons w r ih => intro s; simp only [State.writeParts, ih, State.writePart_cores]
@[simp] theorem State.writePhys_cores (s : State) (src : FrameId) (ctx pa : Nat) (data : List Byte) (p : Bool) : (s.writePhys src ctx pa data p).cores = s.cores := by
  simp [State.writePhys, State.writeRequest]

/-- The parts of a request keep the canonical form of device memory. -/
theorem State.writeParts_wf : ∀ (l : List WPart) (s : State), Memory.wf s.mem = true → Memory.wf (s.writeParts l).mem = true := by
  intro l
  induction l with
  | nil => intro s h; exact h
  | cons w r ih =>
    intro s h
    refine ih _ ?_
    rw [State.writePart_mem]
    split
    · exact h
    · exact memPut_wf _ _ _ h
/-- A write request keeps the canonical form of device memory. -/
theorem State.writeRequest_wf (s : State) (src : FrameId) (ctx : Nat) (l : List WPart) (h : Memory.wf s.mem = true) : Memory.wf (s.writeRequest src ctx l).mem = true := by
  simp only [State.writeRequest, State.fenceReport_mem]; exact State.writeParts_wf l s h
theorem State.writePhys_wf (s : State) (src : FrameId) (ctx pa : Nat) (data : List Byte) (p : Bool) (h : Memory.wf s.mem = true) : Memory.wf (s.writePhys src ctx pa data p).mem = true :=
  s.writeRequest_wf _ _ _ h
/-- Device memory and every core data memory stay canonical. -/
theorem State.writePhys_memoryWf (s : State) (src : FrameId) (ctx pa : Nat) (data : List Byte) (p : Bool) (h : s.memoryWf) : (s.writePhys src ctx pa data p).memoryWf :=
  ⟨s.writePhys_wf src ctx pa data p h.1, by rw [State.writePhys_cores]; exact h.2⟩

/-! ## Core data memory -/

/-- The canonical form of every core, read through the one asked for. -/
theorem dmemsWf_tget (t : Tbl Nat Core) (k : Nat) (h : dmemsWf t = true) : Memory.wf (tget t k {}).dmem = true := by
  induction t with
  | nil => rfl
  | cons x r ih =>
    obtain ⟨j, c⟩ := x
    simp only [dmemsWf, List.all_cons, Bool.and_eq_true] at h
    simp only [tget]
    split
    · exact h.1
    · exact ih h.2
/-- Storing a core with a canonical data memory keeps the canonical form. -/
theorem dmemsWf_tset (t : Tbl Nat Core) (k : Nat) (c : Core) (h : dmemsWf t = true) (hc : Memory.wf c.dmem = true) : dmemsWf (tset t k c) = true := by
  induction t with
  | nil => simpa [dmemsWf, tset] using hc
  | cons x r ih =>
    obtain ⟨j, d⟩ := x
    simp only [dmemsWf, List.all_cons, Bool.and_eq_true] at h
    simp only [tset]
    split
    · simp only [dmemsWf, List.all_cons, Bool.and_eq_true]; exact ⟨hc, h.2⟩
    · simp only [dmemsWf, List.all_cons, Bool.and_eq_true]; exact ⟨h.1, ih h.2⟩
/-- A change of a core that keeps its data memory canonical keeps the canonical form of the machine. -/
theorem State.modCore_memoryWf (s : State) (k : Nat) (f : Core → Core) (h : s.memoryWf) (hf : Memory.wf (f (s.core k)).dmem = true) : (s.modCore k f).memoryWf :=
  ⟨h.1, dmemsWf_tset _ _ _ h.2 hf⟩
/-- In particular one that leaves it. -/
theorem State.modCore_memoryWf_same (s : State) (k : Nat) (f : Core → Core) (h : s.memoryWf) (hf : (f (s.core k)).dmem = (s.core k).dmem) : (s.modCore k f).memoryWf :=
  s.modCore_memoryWf k f h (by rw [hf]; exact dmemsWf_tget _ _ h.2)
/-- A state with the same memories keeps the canonical form. -/
theorem State.memoryWf_of (s t : State) (h : s.memoryWf) (hm : t.mem = s.mem) (hc : t.cores = s.cores) : t.memoryWf := by
  unfold State.memoryWf; rw [hm, hc]; exact h
theorem State.event_memoryWf (s : State) (src : FrameId) (code ctx : Nat) (acc : BitVec 16) (p : List Byte) (h : s.memoryWf) : (s.event src code ctx acc p).memoryWf :=
  s.memoryWf_of _ h (by simp) (by simp)

@[simp] theorem State.dirty_mem (k : Nat) : ∀ (l : List Nat) (s : State), (s.dirty k l).mem = s.mem := by
  intro l; induction l with
  | nil => intro s; rfl
  | cons p r ih => intro s; simp only [State.dirty, ih]; rfl
@[simp] theorem State.dirty_cores (k : Nat) : ∀ (l : List Nat) (s : State), (s.dirty k l).cores = s.cores := by
  intro l; induction l with
  | nil => intro s; rfl
  | cons p r ih => intro s; simp only [State.dirty, ih]; rfl
/-- A write of core data memory keeps the canonical form. -/
theorem State.dmemWrite_memoryWf (s : State) (k a : Nat) (data : List Byte) (h : s.memoryWf) : (s.dmemWrite k a data).memoryWf := by
  unfold State.dmemWrite
  split
  · exact h
  · exact State.memoryWf_of _ _ (s.modCore_memoryWf k (fun c => { c with dmem := memPut c.dmem a data }) h (memPut_wf (s.core k).dmem a data (dmemsWf_tget s.cores k h.2))) (by simp) (by simp)

end Sys2Proof.Machine
end

