-- ==== Sys2Proof/Tests/Slice0.lean ====
section
/-! SUPPORT. Tests: ill-formed commands are refused by WellFormed, words of the spec's encodings decode to what they stand for, worked examples of the spec, and for every statement with hypotheses a state and operands that meet them together. -/

open Sys2Proof Sys2Proof.Machine

namespace Sys2Proof.Tests

set_option Elab.async false

/-! ## Helper states -/

/-- An instruction of core 0 without a guard. -/
def k0 : Issue := ⟨0, 0, false⟩
/-- Core 0 started at supervisor level. -/
def base : State := State.reset.setStat 0 1
/-- Core 0 at user level. -/
def user : State := State.reset.setStat 0 0
/-- Core 0 at supervisor level, lent to context 0, its memory mapped address for address over the first GiB (root table at 1 MiB), some bytes at 0x1000, every cause unmasked, KSP at 0x8000 with limit 0. -/
def vm : State :=
  ((((({ base with
      cat := { base.cat with cores := [(0, ⟨0, 1, 0⟩)] }
      mem := memPut (memPut ((List.range 64).map (fun n => (0x1000 + n, BitVec.ofNat 8 (n + 129)))) 0x100000 (u64 0x101001)) 0x101000 (u64 0x1F) } : State).setReg
    (.ae 0) 0 0x100000).setReg (.cu 0) 0x508 0).setReg (.cu 0) 0x50C 0).setReg (.cu 0) 0x52C 0).setReg (.cu 0) 0x528 0x8000
/-- The same at user level with UTOP at 0x1000. -/
def vmUser : State := (vm.setStat 0 0).setReg (.cu 0) 0x420 0x1000
/-- A guard that does not hold: P3 reads 0. -/
def no3 : Issue := ⟨0, 3, false⟩
/-- The master and every region's copy at `t`, as many ticks after MODULE_READY. -/
def at_ (s : State) (t : W64) : State := { s with pm := { s.pm with master := t, copies := [], ran := t.toNat } }
/-- The state with the command at the front. -/
def front (c : Instr) (s : State) : State := { s with pending := [c] }
/-- A docket's bytes over its header, its parameters and its CRC. -/
def putAll : List (Nat × Nat × Nat) → List Byte → List Byte
  | [], b => b
  | (at_, n, v) :: r, b => putAll r (b.take at_ ++ leBytes n v ++ b.drop (at_ + n))
/-- A docket of opcode `op` for context `ctx` with these parameters. -/
def docket (op ctx : Nat) (ps : List Nat) : List Byte :=
  let len := (docketLength op).getD 20
  let b := u16 op ++ u16 len ++ u32 1 ++ u8 ctx ++ List.replicate (len - 13) 0
  let b := putAll ((List.range ps.length).map (fun i => (paramAt op i, (((docketRow op).map (·.sizes)).getD []).getD i 0, ps.getD i 0))) b
  b ++ u32 (crc32 b)
/-- A docket accepted from SMBus and unanswered. -/
def sent (s : State) (b : List Byte) : State := { s with host := { s.host with dockets := [⟨.smb, b, false⟩] } }
/-- Whether the docket is next to run. -/
def runs (s : State) (op : Nat) (b : List Byte) : Bool :=
  decide ((sent s b).host.dockets.find? (fun d => d.via == .smb) = some ⟨.smb, b, false⟩) && dOpcode b == op && ((sent s b).docketCheck .smb b).isNone && (sent s b).mayRun .smb

/-! ## Ill-formed commands: one for each check -/

theorem test_wf_icmp : (Instr.icmp k0 10 1).wellFormed = false := by decide
theorem test_wf_fcmp : (Instr.fcmp k0 .f32 8 1).wellFormed = false := by decide
theorem test_wf_vcmp : (Instr.vcmp k0 .f32 8).wellFormed = false := by decide
theorem test_wf_vexp : (Instr.vexp k0 .k16).wellFormed = false ∧ (Instr.vlog k0 .k16).wellFormed = false := by decide
theorem test_wf_vq : (Instr.vqpop k0 3).wellFormed = false ∧ (Instr.vqpush k0 3).wellFormed = false := by decide
theorem test_wf_tile : (Instr.tcfg k0 0 10).wellFormed = false ∧ (Instr.trel k0 0 10).wellFormed = false ∧ (Instr.tzero k0 0 10).wellFormed = false
    ∧ (Instr.tsave k0 0 10).wellFormed = false ∧ (Instr.trestore k0 0 10).wellFormed = false := by decide
theorem test_wf_twload : (Instr.twload k0 ⟨0, 0, 3, 1, 0, 0, 0⟩).wellFormed = false := by decide
theorem test_wf_tstream : (Instr.tstream k0 ⟨0, 0, 0x10, false, 0, 0, 1, 0, 0, 0⟩).wellFormed = false := by decide
theorem test_wf_tdrain : (Instr.tdrain k0 ⟨0, 0, 0, 0, 3, 0, 1, false, 0, false, 0, false, false, 0⟩).wellFormed = false := by decide
theorem test_wf_tfill : (Instr.tfill k0 0 0 0x10 0).wellFormed = false ∧ (Instr.temit k0 0 0 8 0).wellFormed = false := by decide
theorem test_wf_timer : (Instr.syncTimerFire 0 256 0).wellFormed = false := by decide
theorem test_wf_offsets : (Instr.counterWrite .mgmt 2 0).wellFormed = false
    ∧ (Instr.statusRegisterWrite .mgmt 2 0).wellFormed = false
    ∧ (Instr.counterWrite .mgmt 2 0).wellFormed = false ∧ (Instr.poweredDownTimeout .mgmt 2 none).wellFormed = false ∧ (Instr.parityScrub 2).wellFormed = false
    ∧ (Instr.strongroomWrite .mgmt 2 0).wellFormed = false ∧ (Instr.parityMismatchRead .mgmt 2).wellFormed = false := by decide
theorem test_wf_port : (Instr.portUp 0 0 ⟨[], 0, 0, 0, 0, 0⟩).wellFormed = false := by decide
theorem test_wf_bar2 : (Instr.bar2Read 0 0 0).wellFormed = false ∧ (Instr.bar2Read 0 0 4097).wellFormed = false ∧ (Instr.bar2Write 0 0 [] false).wellFormed = false
    ∧ (Instr.bar2Resize true 3).wellFormed = false := by decide
theorem test_wf_smbus : (Instr.smbBlockWrite ⟨[], true⟩).wellFormed = false ∧ (Instr.smbBlockRead 256).wellFormed = false := by decide
theorem test_wf_sample : (Instr.srmSample ⟨0, 0, 0, [], 0, 0, false⟩).wellFormed = false := by decide
theorem test_wf_arbiter : (Instr.moduleArbitration ⟨0, 0, 0, 0, [], [], []⟩).wellFormed = false := by decide
theorem test_wf_gating : (Instr.blockGating 0 0 0 [] 0).wellFormed = false := by decide
theorem test_wf_slack : (Instr.slackMeasurementDone 0 0 []).wellFormed = false := by decide
theorem test_wf_memory : (Instr.memoryUncorrectable 0x14000000000).wellFormed = false := by decide
theorem test_wf_reserved : (Instr.reservedOpcode 0 0x00200000 0 0 0).wellFormed = false := by decide
theorem test_wf_vfs : (Instr.vfEnable 0).wellFormed = false := by decide

/-! ## Words of every family, from the spec's encodings -/

theorem test_word_control : decodeWord 0 0x00001ABC = some (.syscall k0 0xABC) ∧ decodeWord 0 0x10800003 = some (.br ⟨0, 2, false⟩ 3) := by decide
theorem test_word_integer : decodeWord 0 0x001FFFFB = some (.pushi k0 0xFFFFB) ∧ decodeWord 0 0x98400000 = some (.add ⟨0, 3, true⟩) := by decide
theorem test_word_predicate : decodeWord 0 0x00600205 = some (.icmp k0 2 5) := by decide
theorem test_word_memory : decodeWord 0 0x00C06000 = some (.ld k0 .d) ∧ decodeWord 0 0x00D0B000 = some (.dst k0 .d) := by decide
theorem test_word_scalar : decodeWord 0 0x01009000 = some (.ffma k0 .f64) := by decide
theorem test_word_vector : decodeWord 0 0x02101000 = some (.vld k0 .w32) ∧ decodeWord 0 0x02200000 = some (.vadd k0 .f32) ∧ decodeWord 0 0x02800002 = some (.vqpop k0 2) := by decide
theorem test_word_fold : decodeWord 0 0x02A00000 = some (.vfold k0) := by decide
theorem test_word_engine : decodeWord 0 0x04000000 = some (.aepost k0) := by decide
theorem test_word_sync : decodeWord 0 0x04800000 = some (.arrive k0) ∧ decodeWord 0 0x04901000 = some (.swaitT k0) := by decide
theorem test_word_fence : decodeWord 0 0x05000000 = some (.fence k0) := by decide
theorem test_word_tile : decodeWord 0 0x058014C0 = some (.trel k0 1 3) := by decide
theorem test_word_bundle : decodeCore 0 true 0x06140002 0x00008000 0 0 = some (.tstream k0 ⟨1, 0, 2, false, 0, 0, 128, 0, 0, 0⟩) ∧ decodeCore 0 false 0x06140002 0x00008000 0 0 = none := by decide
theorem test_word_reserved : decodeWord 0 0x01100000 = none ∧ decodeWord 0 0x00005000 = none ∧ decodeWord 0 0x00400001 = none := by decide
theorem test_table_word : decodeTableWord 32 0x00400000 = none ∧ State.reset.withFetchWord 32 0x00400000 = State.reset := by decide

/-! ## Worked examples of the spec -/

/-- The status register of a stack controller after R57: flags 2 and 5, then 2 again. -/
def stk1 : State := (State.reset.raise (.stk 0 0) 0x40 2).raise (.stk 0 0) 0x40 5
/-- After step 4. -/
def stk4 : State := stk1.raise (.stk 0 0) 0x40 2
/-- What the register reads. -/
theorem test_status_reads : stk1.regNow (.stk 0 0) 0x40 = 0x00020024 ∧ stk4.regNow (.stk 0 0) 0x40 = 0x00030024 := by decide
/-- Step 5: the write of what step 3 read clears flag 5 and leaves flag 2. -/
theorem test_status_write : (stk4.write .mgmt (stk4.bar0 (.stk 0 0) + 0x40) 0x00020024).regNow (.stk 0 0) 0x40 = 0x00030004 := by decide
/-- The CRC-32 check value of IEEE 802.3 and the first words of the docket after R480: granule 300 to context 5. -/
theorem test_docket_words : crc32 [0x31, 0x32, 0x33, 0x34, 0x35, 0x36, 0x37, 0x38, 0x39] = 0xCBF43926 ∧ docketLength 0x0101 = some 24 ∧ paramAt 0x0101 0 = 0x10 ∧ paramAt 0x0101 1 = 0x12
    ∧ leNat ((docket 0x0101 5 [300, 0]).take 4) = 0x00180101 ∧ fieldAt (docket 0x0101 5 [300, 0]) 0x10 4 = 0x12C := by decide +kernel
/-- The check value of CRC-32C (R429). -/
theorem test_crc32c : crc32c [0x31, 0x32, 0x33, 0x34, 0x35, 0x36, 0x37, 0x38, 0x39] = 0xE3069283 := by decide +kernel
/-- The exchange after R454: the module is 40 ns ahead. -/
theorem test_alignment : (5000000000 - 5000000310 + (5000000800 - 5000000410) : Int) / 2 = 40 ∧ (5000000310 - 5000000000 + (5000000800 - 5000000410) : Int) / 2 = 350 := by decide
/-- Division by zero and the overflowing quotient (R114). -/
theorem test_div : (match exec (.div k0) (base.withInts 0 [0, 7]) with | .next t => (t.core 0).istk | _ => []) = [-1]
    ∧ (match exec (.div k0) (base.withInts 0 [-1, 0x8000000000000000]) with | .next t => (t.core 0).istk | _ => []) = [0x8000000000000000] := by decide
/-- A write of VLEN above 512 leaves 512 (R154). -/
theorem test_vsetvl : (match exec (.vsetvl k0) (base.withInts 0 [600]) with | .next t => ((t.core 0).istk, t.vlen 0) | _ => ([], 0)) = ([512], 512) := by decide

/-! ## Hypotheses that are met: the queue, the words, core instructions -/

theorem test_meets_StepRunsFront : (front (.nop k0) base).pending = .nop k0 :: [] := by decide
theorem test_meets_CoreWordsRoundTrip : (Instr.add k0).wellFormed = true ∧ encode (.add k0) = some [0x00400000]
    ∧ (Instr.tstream k0 ⟨1, 0, 2, false, 0, 0, 128, 0, 0, 0⟩).wellFormed = true ∧ encode (.tstream k0 ⟨1, 0, 2, false, 0, 0, 128, 0, 0, 0⟩) = some [0x06140002, 0x00008000, 0, 0] := by decide
theorem test_meets_DecodedWordIsEncoding : decodeWord 0 0x00400000 = some (.add k0) := by decide
theorem test_meets_FalseGuard : base.atBoundary 0 = true ∧ base.boundaryCause 0 = none ∧ (base.core 0).tileHold = false ∧ (base.predBit 0 no3.g.toNat == no3.s) = true := by decide
theorem test_meets_IntegerResults : (base.withInts 0 [0, 0x8000000000000000]).issuesNow k0 ∧ (base.withInts 0 [0, 0x8000000000000000]).onCore 0 2 1 0 0
    ∧ (base.withInts 0 [1]).issuesNow k0 ∧ (base.withInts 0 [1]).onCore 0 1 1 0 0 ∧ base.issuesNow k0 ∧ base.onCore 0 0 1 0 0 := by
  unfold State.issuesNow State.onCore; decide
theorem test_meets_StackShuffle : (base.withInts 0 ((List.range 31).map (BitVec.ofNat 64))).issuesNow k0 ∧ (base.withInts 0 [3, 2, 1]).onCore 0 3 3 0 0 ∧ (base.withInts 0 ((List.range 31).map (BitVec.ofNat 64))).onCore 0 16 17 0 0
    ∧ ((base.withInts 0 ((List.range 31).map (BitVec.ofNat 64))).core 0).istk[15]? = some 15 ∧ (base.withSlots 0 [⟨1, 0⟩, ⟨2, 5⟩, ⟨3, 15⟩]).onCore 0 0 0 3 3 ∧ base.onCore 0 0 0 0 1 := by
  unfold State.issuesNow State.onCore; decide
theorem test_meets_PredicateResults : base.issuesNow k0 ∧ base.onCore 0 0 0 0 0 ∧ (base.withInts 0 [0, -1]).onCore 0 2 0 0 0 := by unfold State.issuesNow State.onCore; decide
theorem test_meets_ControlFlow : base.issuesNow k0 ∧ base.onCore 0 0 0 0 0 ∧ (base.withInts 0 [0x103]).onCore 0 1 1 0 0 ∧ (base.predBit 0 no3.g.toNat == no3.s) = true := by unfold State.issuesNow State.onCore; decide
theorem test_meets_ExceptionEntry : vm.inDf 0 = false ∧ vm.kspReason 0 = none ∧ Memory.wf (vm.core 0).dmem = true ∧ ((vm.setReg (.cu 0) 0x528 0x8040).kspReason 0 = some 1) ∧ (vm.setReg (.cu 0) 0x528 0x8040).inDf 0 = false := by decide
theorem test_meets_SyscallAndRetx : vm.issuesNow k0 ∧ vm.onCore 0 0 0 0 0 ∧ vm.masked 0 2 = false ∧ base.masked 0 2 = true ∧ vm.priv 0 = true ∧ vm.kspReason 0 = none
    ∧ (vm.setStat 0 5).issuesNow k0 ∧ (vm.setStat 0 5).priv 0 = true ∧ (vm.setStat 0 5).inDf 0 = true := by unfold State.issuesNow State.onCore; decide
/-- An interrupt that is pending, unmasked and held back by IHOLD. -/
def heldIrq : State := (((base.setStat 0 3).setReg (.cu 0) 0x50C 0).setReg (.cu 0) 0x530 0).modFrame (.cu 0) (fun f => { f with flags := tset f.flags 0x254 1 })
theorem test_meets_SystemRegisters : base.issuesNow k0 ∧ base.priv 0 = true ∧ base.interruptNow 0 = none ∧ heldIrq.issuesNow k0 ∧ (heldIrq.interruptNow 0).isSome = true
    ∧ regInfo (.cu 0) (4 * (0x100 : BitVec 10).toNat) = some ⟨.plain, 0x7FFC0, 0x40000⟩ ∧ setHas (base.frame (.cu 0)).badParity 0x400 = false ∧ base.onCore 0 0 1 0 0 := by
  unfold State.issuesNow State.onCore; decide
theorem test_meets_Privilege : user.issuesNow k0 ∧ user.onCore 0 0 0 0 0 ∧ (user.withInts 0 [1]).onCore 0 1 0 0 0 ∧ user.priv 0 = false ∧ user.masked 0 1 = true ∧ vmUser.issuesNow k0 ∧ vmUser.priv 0 = false ∧ vmUser.masked 0 1 = false := by
  unfold State.issuesNow State.onCore; decide
theorem test_meets_AccessFaults : (vmUser.withInts 0 [0xFF9]).issuesNow k0 ∧ (vmUser.withInts 0 [0xFF9]).onCore 0 1 1 0 0 ∧ vmUser.reg (.cu 0) 0x420 < (0xFF9 : W64).toNat + 8 ∧ vmUser.masked 0 1 = false
    ∧ (vm.withInts 0 [4]).issuesNow k0 ∧ vm.priv 0 = true ∧ (4 : W64).toNat % 8 ≠ 0 ∧ vm.masked 0 5 = false ∧ base.priv 0 = true ∧ base.masked 0 5 = true
    ∧ (0x80000 : W64).toNat % 8 = 0 ∧ 0x80000 < (0x80000 : W64).toNat + 8 ∧ vm.masked 0 6 = false := by
  unfold State.issuesNow State.onCore; decide
theorem test_meets_ThirdFault : (vm.setStat 0 5).inDf 0 = true ∧ (9 : Nat) < 32 ∧ Memory.wf ((vm.setStat 0 5).core 0).dmem = true := by decide
theorem test_meets_Spill : (vm.withInts 0 ((List.range 32).map (BitVec.ofNat 64))).issuesNow k0 ∧ ((vm.withInts 0 ((List.range 32).map (BitVec.ofNat 64))).core 0).istk = 0 :: ((List.range 32).map (BitVec.ofNat 64)).drop 1
    ∧ (((List.range 32).map (BitVec.ofNat 64)).drop 1).length = 31 ∧ (vm.core 0).vstk.length ≤ 16 ∧ vm.reg (.cu 0) 0x404 + 64 ≤ vm.reg (.cu 0) 0x408 ∧ vm.reg (.cu 0) 0x404 + 64 ≤ 0x7FF00
    ∧ vm.issuesNow k0 ∧ (vm.core 0).istk = [] ∧ vm.reg (.cu 0) 0x404 = vm.reg (.cu 0) 0x400 ∧ vm.masked 0 9 = false := by unfold State.issuesNow; decide
theorem test_meets_PlainFrame : (base.withInts 0 [1, 2, 3]).issuesNow k0 ∧ (base.withInts 0 [1, 2, 3]).onCore 0 0 0 0 0 ∧ (base.withInts 0 [1, 2, 3]).onCore 0 2 3 0 0 ∧ (base.withInts 0 [1, 2, 3]).onCore 0 3 3 0 0
    ∧ (match exec (.add k0) (base.withInts 0 [1, 2, 3]) with | .next t => (t.core 0).istk | _ => []) = [3, 3] := by unfold State.issuesNow State.onCore; decide
theorem test_meets_CoreData : (vm.withInts 0 [0x7FFF8, 5]).issuesNow k0 ∧ ((vm.withInts 0 [0x7FFF8, 5]).core 0).istk = 0x7FFF8 :: [5] ∧ Memory.wf (vm.core 0).dmem = true ∧ (0x7FFF8 : W64).toNat % 8 = 0 ∧ (0x7FFF8 : W64).toNat + 8 ≤ 0x80000 ∧ vm.priv 0 = true
    ∧ vm.dmemPoison 0 0x7FFF8 8 = false ∧ (vm.withInts 0 [0x7FFF8, 5]).onCore 0 2 0 0 0 ∧ (vm.withInts 0 [0x7FFF8, 5]).onCore 0 1 1 0 0 ∧ (vm.withInts 0 [0x7FFF8, 5]).onCore 0 1 0 0 1
    ∧ ((vm.withInts 0 [8]).withSlots 0 [⟨1, 1⟩]).onCore 0 1 0 1 0 ∧ ((0xFF8 : W64).toNat + 8 ≤ vmUser.reg (.cu 0) 0x420) := by
  unfold State.issuesNow State.onCore; decide
/-- A load or store of 8 bytes at 0x1010, and the same of a sector that carries poison. -/
def dev : State := vm.withInts 0 [0x1010, 5]
theorem test_meets_DeviceMemory : dev.issuesNow k0 ∧ dev.loadWait 0 0x1010 8 = none ∧ dev.storeWait 0 0x1010 8 = none ∧ (0x1010 : W64).toNat % 8 = 0
    ∧ (dev.xlateRange 0 (vm.access 0 false) 0x1010 8).2 = .inr [⟨0x1010, 0x1010, 8, false⟩] ∧ (dev.xlateRange 0 (vm.access 0 true) 0x1010 8).2 = .inr [⟨0x1010, 0x1010, 8, false⟩]
    ∧ (dev.loadDev 0 0x1010 8).poison = false ∧ dev.onCore 0 1 1 0 0 ∧ dev.onCore 0 2 0 0 0 ∧ (dev.withSlots 0 [⟨1, 1⟩]).onCore 0 1 0 1 0 ∧ dev.onCore 0 1 0 0 1
    ∧ (({ dev with memPoison := [32] } : State).loadDev 0 0x1010 8).poison = true ∧ dev.masked 0 8 = false := by
  unfold State.issuesNow State.onCore; decide +kernel
theorem test_meets_VectorMemory : (vm.withInts 0 [0x1003]).issuesNow k0 ∧ min (8192 / (8 * laneBytes .w32)) (vm.vlen 0) * laneBytes .w32 = 1024 ∧ min (8192 / (8 * laneBytes .w32)) ((vm.setReg (.cu 0) 0x230 0).vlen 0) * laneBytes .w32 = 0
    ∧ (vm.withInts 0 [0x1003]).loadWait 0 0x1003 1024 = none ∧ (vm.withInts 0 [0x1003]).storeWait 0 0x1003 1024 = none
    ∧ ((vm.withInts 0 [0x1003]).xlateRange 0 (vm.access 0 false) 0x1003 1024).2 = .inr [⟨0x1003, 0x1003, 1024, false⟩] ∧ ((vm.withInts 0 [0x1003]).xlateRange 0 (vm.access 0 true) 0x1003 1024).2 = .inr [⟨0x1003, 0x1003, 1024, false⟩]
    ∧ ((vm.withInts 0 [0x400000000000]).xlateRange 0 (vm.access 0 false) 0x400000000000 1024).2 = .inl (1, 0x400000000000) ∧ ((vm.withInts 0 [0x400000000000]).xlateRange 0 (vm.access 0 true) 0x400000000000 1024).2 = .inl (1, 0x400000000000)
    ∧ ((vm.withInts 0 [0x400000000000]).probe 0 false 0x400000000000 1024).masked 0 4 = false ∧ ((vm.withInts 0 [0x400000000000]).probe 0 true 0x400000000000 1024).masked 0 4 = false
    ∧ ((base.withInts 0 [0x400000000000]).probe 0 false 0x400000000000 1024).masked 0 4 = true ∧ ((base.withInts 0 [0x400000000000]).probe 0 true 0x400000000000 1024).masked 0 4 = true
    ∧ ((base.withInts 0 [0x400000000000]).xlateRange 0 (base.access 0 false) 0x400000000000 1024).2 = .inl (1, 0x400000000000) ∧ (base.withInts 0 [0x400000000000]).issuesNow k0 := by
  unfold State.issuesNow; decide +kernel
/-- A translation of the 2 MiB from 0 is held, the cache is off. -/
def held : State := (vm.withInts 0 [0x1010, 5]).modAe 0 (fun x => { x with tlbM := [(0, ⟨0, 0, true, true, true, false⟩)] })
theorem test_meets_HeldTranslation : held.cacheOn 0 = false ∧ (held.ae 0).writes = [] ∧ (held.ae 0).frame = [] ∧ (held.ae 0).again = [] ∧ (held.region (regionOfPa 0x1010)).fenced = false ∧ (0x1010 : W64).toNat % 2 ^ 21 + 128 ≤ 2 ^ 21
    ∧ ((held.ae 0).cached (0x1010 : W64).toNat).isSome = true ∧ ((held.ae 0).cached 0x1010).map (fun p => (p.allows (held.access 0 false), p.allows (held.access 0 true), p.frame + 0x1010 % 2 ^ p.size)) = some (none, none, 0x1010)
    ∧ held.loadWait 0 0x1010 8 = none ∧ held.storeWait 0 0x1010 8 = none ∧ (held.cache 0).tray = [] ∧ (held.cache 0).prefetch = [] ∧ setHas held.memPoison (0x1010 / 128) = false
    ∧ (held.setReg (.cu 0) 0x230 32).vlen 0 * laneBytes .w32 = 128 := by decide +kernel
/-- One, two and three slots on the V-stack. -/
def slots (s : State) : State := s.withSlots 0 [⟨0x40490FDB3F800000, 0⟩, ⟨0xC0000000, 0⟩, ⟨0x7F800001, 5⟩]
theorem test_meets_Scalars : (slots base).issuesNow k0 ∧ (slots base).onCore 0 0 0 1 1 ∧ (slots base).onCore 0 0 0 2 1 ∧ (slots base).onCore 0 0 0 3 1 ∧ (slots base).onCore 0 0 0 2 0 ∧ (slots base).onCore 0 0 1 1 0 ∧ ((slots base).withInts 0 [1]).onCore 0 1 0 0 1
    ∧ (vm.withSlots 0 [⟨1, 8⟩]).issuesNow k0 ∧ (vm.withSlots 0 [⟨1, 8⟩]).onCore 0 0 1 1 0 ∧ vm.masked 0 8 = false := by unfold State.issuesNow State.onCore; decide
theorem test_meets_Lanes : (slots base).issuesNow k0 ∧ (slots base).onCore 0 0 0 1 1 ∧ (slots base).onCore 0 0 0 2 1 ∧ (slots base).onCore 0 0 0 3 1 ∧ base.vlen 0 = 512 := by unfold State.issuesNow State.onCore; decide
theorem test_meets_LaneMoves : ((slots base).withInts 0 [511, 7]).issuesNow k0 ∧ ((slots base).withInts 0 [511, 7]).onCore 0 1 1 0 0 ∧ ((slots base).withInts 0 [511, 7]).onCore 0 1 0 1 1 ∧ ((slots base).withInts 0 [511, 7]).onCore 0 1 0 1 2
    ∧ ((slots base).withInts 0 [511, 7]).onCore 0 1 0 2 1 ∧ (slots base).onCore 0 0 0 0 1 := by unfold State.issuesNow State.onCore; decide
/-- A ready entry of a queue. -/
def entry : QEntry := { row := 5, valid := true, tag := 3, poison := false }
theorem test_meets_TileQueues : (base.setQueue 0 12 (List.replicate 4 entry)).issuesNow k0 ∧ (base.setQueue 0 12 (List.replicate 4 entry)).onCore 0 0 1 0 1 ∧ (base.setQueue 0 12 (List.replicate 4 entry)).vqReady 0 (2 ^ (2 : BitVec 2).toNat) = true
    ∧ (base.setQueue 0 12 (List.replicate 3 entry)).vqReady 0 4 = false ∧ base.frozen (.ae 0) = false ∧ ((slots base).withInts 0 [0xF0000000000]).onCore 0 1 0 1 0 ∧ (base.setQueue 0 13 (List.replicate 60 entry)).room 0 13 4 = true
    ∧ (base.setQueue 0 13 (List.replicate 61 entry)).room 0 13 4 = false := by unfold State.issuesNow State.onCore; decide
theorem test_meets_Fold : (slots base).issuesNow k0 ∧ (slots base).onCore 0 0 0 2 1 ∧ ((slots base).withInts 0 [0x7FC00]).onCore 0 1 0 0 0 ∧ (0x7FC00 : W64).toNat % 4 = 0 ∧ (0x7FC00 : W64).toNat + 1024 ≤ 0x80000 ∧ base.priv 0 = true := by
  unfold State.issuesNow State.onCore; decide
/-- MCOPY of 20,000 bytes from 0x1000 to 0x8000 with its second chunk in hand. -/
def copying : State := (vm.withInts 0 [20000, 0x1000, 0x8000]).modCore 0 (fun c => { c with resum := some { instr := .mcopy k0, chunk := 1, partials := [], flags := 0, poison := false, data := some [(List.replicate 3616 7, false)] } })
/-- VWRED.SUM of 4,096 elements with chunk `n` in hand. -/
def summing (n : Nat) : State := (vm.withInts 0 [4096, 0x1000]).modCore 0 (fun c => { c with resum := some { instr := .vwredSum k0, chunk := n, partials := List.replicate 128 0, flags := 0, poison := false, data := some [] } })
theorem test_meets_Resumable : (vm.withInts 0 [20000, 0x1000, 0x8000]).issuesNow k0 ∧ (vm.reg (.cu 0) 0x240).testBit 31 = false ∧ (vm.reg (.cu 0) 0x244).testBit 31 = false
    ∧ (vm.withInts 0 [20000, 0x1000, 0x8000]).onCore 0 2 2 0 1 ∧ (vm.withInts 0 [20000, 0x1000, 0x8000]).onCore 0 3 3 0 1 ∧ (vm.withInts 0 [20000, 0x1000, 0x8000]).onCore 0 3 3 0 0
    ∧ (vm.withInts 0 [20000, 0x1000, 0x8000]).resumArgs 0 (.mcopy k0) = (0x8000, 0x1000, 20000) ∧ (vm.withInts 0 [20000, 0x1000, 0x8000]).openGoes 0 0x1000 (chunkBytes 20000 0) = true ∧ (vm.withInts 0 [20000, 0x1000, 0x8000]).openGoes 0 (0x1000 + 16384) (chunkBytes 20000 1) = true
    ∧ (vm.withInts 0 [4096, 0x1000]).resumArgs 0 (.vwredSum k0) = (0, 0x1000, 16384) ∧ (vm.withInts 0 [4096, 0x1000]).openGoes 0 0x1000 16384 = true
    ∧ ((vm.setReg (.cu 0) 0x244 0x80000001).reg (.cu 0) 0x244).testBit 31 = true ∧ (vm.setReg (.cu 0) 0x244 0x80000001).reg (.cu 0) 0x244 / 2 ^ 16 % 16 = 0 := by unfold State.issuesNow State.onCore; decide +kernel
theorem test_meets_ChunkEnd : ((copying.core 0).resum.map (fun r => (r.chunk, isCopy r.instr))) = some (1, true) ∧ copying.frozen (.cu 0) = false ∧ copying.ctxFrozen 0 = false ∧ copying.pwr.ready = true ∧ copying.resumArgs 0 (.mcopy k0) = (0x8000, 0x1000, 20000) ∧ 1 < chunkCount 20000
    ∧ copying.rangeFaults 0 true false (0x8000 + 16384) (chunkBytes 20000 1) = [] ∧ chunkCount 20000 = 1 + 1
    ∧ (copying.chunkWrites 0 (0x8000 + 16384) [(List.replicate 3616 7, false)]).1.writesGo 0 (copying.chunkWrites 0 (0x8000 + 16384) [(List.replicate 3616 7, false)]).2 = true
    ∧ ((summing 0).core 0).resum.map (fun r => isCopy r.instr) = some false ∧ chunkCount ((summing 1).resumArgs 0 (.vwredSum k0)).2.2 = 1 := by decide +kernel

/-! ## Tiles and arrays -/

/-- The PC at the next multiple of 16. -/
def at16 (s : State) : State := s.setPc 0 (BitVec.ofNat 64 (((s.core 0).pc.toNat + 15) / 16 * 16))
/-- The next state of a command. -/
def after (c : Instr) (s : State) : State := at16 (match exec c s with | .next t => t | _ => s)
/-- Array 1 as its program has filled it: tile 0 of 16 by 16 K16 from LQ0, A0 of 16 by 16 zeroed. -/
def filled : State := after (.tzero k0 1 8) ((after (.tcfg k0 1 8) ((after (.tfill k0 1 0 8 0) (after (.tcfg k0 1 0) (vm.withInts 0 [(mkCfg 15 15 0 0).setWidth 64]))).withInts 0 [(mkCfg 15 15 1 0).setWidth 64])))
/-- With its weights loaded from tile 0. -/
def loaded : State := after (.twload k0 ⟨1, 0, 0, 0, 0, 0, 0⟩) filled
/-- A stream of 16 rows from LQ0. -/
def stream1 : Stream := ⟨1, 0, 8, true, 0, 0, 16, 15, 0, 0⟩
/-- A drain of 16 rows to SQ0. -/
def drain1 : Drain := ⟨1, 0, 0x10, 0, 0, 0, 16, false, 0, false, 0, false, false, 0⟩
theorem test_meets_TileDispatch : (vm.withInts 0 [0x8000]).issuesNow k0 ∧ (vm.withInts 0 [0x8000]).onCore 0 1 0 0 0 ∧ vm.onCore 0 0 0 0 0 ∧ vm.dispatchWait 0 [1] = none ∧ vm.dispatchWait 0 [0, 1, 2, 3] = none ∧ vm.tilesQuiet 0 = true
    ∧ filled.tilesQuiet 0 = false ∧ ((filled.tileView 0 1).view 0).2 = true ∧ filled.dispatchWait 0 [1, 2] = none ∧ cfgValid 0 (BitVec.ofNat 32 (mkCfg 15 15 0 0).toNat) = true := by unfold State.issuesNow State.onCore; decide
/-- An image of tile 0 at 0x8000. -/
def withImage : State := { vm with mem := memPut vm.mem 0x8000 (u32 (mkCfg 15 15 0 0).toNat ++ u32 1) }
theorem test_meets_TileImages : (withImage.withInts 0 [0x8000]).imageFaults 0 true 0x8000 0 = [] ∧ (withImage.withInts 0 [0x8000]).imageFaults 0 false 0x8000 0 = [] ∧ (withImage.withInts 0 [0x8000]).headGoes 0 0x8000 0 = true
    ∧ (headFlags ((withImage.withInts 0 [0x8000]).imageHead 0 0x8000 0).bytes).testBit 1 = false ∧ headFlags ((withImage.withInts 0 [0x8000]).imageHead 0 0x8000 0).bytes < 4
    ∧ cfgValid 0 (headCfg ((withImage.withInts 0 [0x8000]).imageHead 0 0x8000 0).bytes) = true ∧ (withImage.withInts 0 [0x8000]).issuesNow k0 ∧ (withImage.withInts 0 [0x8000]).onCore 0 1 0 0 0 ∧ (withImage.withInts 0 [0x8000]).dispatchWait 0 [0] = none := by
  unfold State.issuesNow State.onCore; decide +kernel
theorem test_meets_Bundles : filled.issuesNow k0 ∧ (filled.core 0).pc.toNat % 16 = 0 ∧ filled.onCore 0 0 0 0 0 ∧ (⟨1, 0, 0, 0, 0, 0, 0⟩ : WeightLoad).legal = true ∧ filled.dispatchWait 0 [1] = none
    ∧ (loadConds (filled.tileView 0 1) ⟨1, 0, 0, 0, 0, 0, 0⟩).all (fun c => !c.bad) = true ∧ stream1.legal = true ∧ (streamConds (loaded.tileView 0 1) stream1).all (fun c => !c.bad) = true ∧ loaded.armedAt 0 1 = none
    ∧ drain1.legal = true ∧ (drainConds (loaded.tileView 0 1) drain1).all (fun c => !c.bad) = true ∧ opdHead 8 = true ∧ opdTail 0x10 = true := by unfold State.issuesNow State.onCore; decide
theorem test_meets_Armed : (after (.tstartAt k0 1) (loaded.withInts 0 [100])).armedAt 0 1 = some 100 ∧ ((after (.tstartAt k0 1) (loaded.withInts 0 [100])).copyOf (regionOf 0)).toNat < (100 : W64).toNat := by decide
theorem test_meets_BundleShape : ((((streamConds (loaded.tileView 0 1) { stream1 with rows := 17 }).filter (·.bad)).find? (fun c => c.code == 10)).map (·.code) = some 10) ∧ loaded.masked 0 10 = false
    ∧ ((streamConds (base.tileView 0 1) stream1).filter (·.bad)).length ≠ 0 ∧ base.masked 0 10 = true := by decide
/-- Array 1 of core 0 replaced. -/
def arr1 (f : TileArray → TileArray) : State := vm.modArr 0 1 f
/-- A stream that has popped none of its two rows. -/
def run1 : StreamRun := { seq := 4, pc := 0, b := { stream1 with rows := 2 }, len := 16, etype := 0, se := 0 }
/-- A row that entered 257 cycles ago and the weights it meets. -/
def row1 : FlightRow := { stream := 4, entry := 43, bits := 5, valid := true, tag := 3, poison := false, acc := 0, row := 0, gen := 1, latched := some {} }
/-- A drain to SQ0 with one entry left to push. -/
def run2 : DrainRun := { cmd := ⟨.tdrain drain1 0 0 0 0, 5, 0, false⟩, b := drain1, start := 10, cols := 16, factor := 0, lo := 0, hi := 0, bias := [], record := 0, se := 0, read := 16, nextRead := 0, left := 1 }
/-- The arrays of core 0 stand before phase `p`, array 1 as `f` makes it. -/
def before (p : Nat) (f : TileArray → TileArray) : State := (arr1 f).modCore 0 (fun c => { c with tphase := p })
theorem test_meets_ArrayEvents : vm.pwr.ready = true ∧ vm.siteOf 0 ≠ 0xFF ∧ vm.frozen (.tcu 0 1) = false ∧ (before 3 id).tileUntil 0 1 2 9 = some 28 ∧ 11 * 2 + 9 < 11 * ((before 1 (fun x => { x with cycle := 3 })).arr 0 1).cycle + ((before 1 (fun x => { x with cycle := 3 })).core 0).tphase
    ∧ 0 = ((before 3 id).arr 0 1).cycle ∧ ((before 3 id).core 0).tphase = 3 ∧ (vm.modFrame (.tcu 0 1) (fun f => { f with frozen := true })).frozen (.tcu 0 1) = true := by decide +kernel
theorem test_meets_ArrayIssue : (before 3 id).headIssues 0 1 = none ∧ ((before 3 (fun x => { x with cmds := [⟨.trel 0, 0, 0, false⟩] })).headIssues 0 1).isSome = true := by decide +kernel
/-- A state whose feeder may pop a row. -/
def feeding1 : State := (before 4 (fun x => { x with feeding := some 4, streams := [run1] })).setQueue 0 0 [entry]
theorem test_meets_RowPop : (feeding1.arr 0 1).ramp = none ∧ (feeding1.arr 0 1).weight = none ∧ (feeding1.arr 0 1).port = none ∧ (feeding1.arr 0 1).feeding = some 4 ∧ (feeding1.arr 0 1).streams.find? (fun r => r.seq == 4) = some run1
    ∧ (feeding1.arr 0 1).held = false ∧ (feeding1.streamRow 0 1 run1).isSome = true ∧ ((before 4 id).arr 0 1).feeding = none := by decide +kernel
theorem test_meets_RowWrite : ((before 6 (fun x => { x with cycle := 300, flight := [row1], streams := [run1], gens := [⟨1, 0, mkCfg 15 15 0 0, []⟩] })).arr 0 1).flight = [row1] ∧ row1.entry + 257 = 300
    ∧ [run1].find? (fun q => q.seq == row1.stream) = some run1 ∧ (([⟨1, 0, mkCfg 15 15 0 0, []⟩] : List WGen).find? (fun g => g.id == row1.gen)).isSome = true := by decide +kernel
theorem test_meets_DrainEvents : ((before 8 (fun x => { x with drain := some { run2 with left := 0 } })).arr 0 1).weight = none ∧ ({ run2 with left := 0 } : DrainRun).finished 0 = true
    ∧ ((before 1 (fun x => { x with drain := some run2, deskew := [entry] })).arr 0 1).deskew = entry :: [] ∧ (before 1 (fun x => { x with drain := some run2, deskew := [entry] })).tailReady 0 (queueOf run2.b.opd.toNat) = true
    ∧ ((before 9 (fun x => { x with cycle := 5, ramp := some ⟨6, 6, 0⟩ })).arr 0 1).ramp = some ⟨6, 6, 0⟩ ∧ (6 : Nat) ≤ 5 + 1 ∧ ((before 10 id).arr 0 1).clears = [] := by decide +kernel

/-! ## Access engine, fences, sync -/

/-- A LOAD of two rows of 256 bytes at 0x1000 into LQ0, its eight words in order. -/
def words1 : List W64 := (List.range 8).map (fun i => if i = 0 then 0x01008000 else if i = 1 then 0x1000 else if i = 2 then 2 else 0)
/-- The machine with that descriptor posted under number 0. -/
def desc1 : Desc := { words := words1, user := false, seq := 0, waiting := false }
/-- The words on the stack, word 7 at the top, for AEPOST. -/
def posting : State := vm.withInts 0 (words1.reverse ++ [7])
/-- The machine with the LOAD posted, started, its first row arrived. -/
def oneDesc (d : Desc) : State := vm.setDesc 0 0 d
/-- Bits [3:0] of word 0 replaced: another kind. -/
def kindOf (n : W64) : List W64 := words1.mapIdx (fun i w => if i = 0 then w / 16 * 16 + n else w)
theorem test_meets_Engine : posting.issuesNow k0 ∧ posting.onCore 0 8 1 0 0 ∧ posting.freeDesc 0 = some 0 ∧ descLegal (((posting.core 0).istk.take 8).reverse) = true ∧ posting.frozen (.ae 0) = false
    ∧ descLegal ((List.replicate 8 (0 : W64)).reverse) = false ∧ vm.masked 0 12 = false ∧ base.masked 0 12 = true
    ∧ (((List.range 16).foldl (fun s n => s.setDesc 0 n desc1) vm).withInts 0 (words1.reverse)).freeDesc 0 = none
    ∧ (vm.withInts 0 [0, 0]).onCore 0 1 0 0 0 ∧ vm.desc 0 0 = none ∧ (oneDesc desc1).desc 0 0 = some desc1 ∧ vm.prefetchGoes 0 (!vm.priv 0) [0x1000] = true ∧ vm.priv 0 = true ∧ (vm.withInts 0 [0, 0]).onCore 0 2 1 0 0 ∧ (vm.withInts 0 [0, 0]).onCore 0 2 0 0 0 := by
  unfold State.issuesNow State.onCore; decide +kernel
/-- A stopped descriptor with its record. -/
def stopped1 : State := (oneDesc { desc1 with started := true, stopped := true }).modAe 0 (fun a => { a with frecs := [(0, { valid := true, element := 15 })] })
theorem test_meets_Restart : (stopped1.frec 0 0).valid = true ∧ (stopped1.desc 0 0).isSome = true ∧ stopped1.target .mgmt (stopped1.restartAt 0 0) true = .frame (.ae 0) (0x110 + 32 * 0) 0 := by decide
/-- The LOAD with its first row assembled. -/
def arrived (n : W64) : Desc := { desc1 with words := kindOf n, started := true, translated := 1, asm := [(0, ⟨List.replicate 256 0, 0, false⟩)] }
/-- The LOAD waiting on an object that is unbound by now, and started. -/
def unbound : State := oneDesc { desc1 with waiting := true }
def begun1 : Desc := { desc1 with started := true }
theorem test_meets_DescriptorStart : (oneDesc desc1).desc 0 0 = some desc1 ∧ (oneDesc desc1).aeStarts 0 = true ∧ (oneDesc desc1).earlierAll 0 desc1 (fun m e => (oneDesc desc1).issuedLast 0 m e) = true
    ∧ unbound.waitOf (.desc 0 0) = none ∧ unbound.fenceWrites 0 = []
    ∧ (unbound.descAcquire 0 (by decide) 0 { desc1 with waiting := true }).earlierAll 0 { desc1 with waiting := false } (fun m e => (unbound.descAcquire 0 (by decide) 0 { desc1 with waiting := true }).issuedLast 0 m e) = true := by decide +kernel
theorem test_meets_Translation : begun1.started = true ∧ begun1.waiting = false ∧ begun1.stopped = false ∧ begun1.aborted = false ∧ begun1.translated < begun1.rows ∧ (oneDesc begun1).lookups 0 = true ∧ begun1.kind = 0 ∧ begun1.queue = some 0
    ∧ ((oneDesc begun1).queue 0 0).length + (oneDesc begun1).reserved 0 0 < 64 ∧ (oneDesc begun1).olderStore 0 0 (begun1.rowVa 0 (begun1.tag 0)) begun1.span = false
    ∧ ((oneDesc begun1).xlateRow 0 begun1 false (begun1.rowVa 0 (begun1.tag 0)) begun1.rowLen).2.2 = none
    ∧ ((oneDesc begun1).xlateRow 0 begun1 false (begun1.rowVa 0 (begun1.tag 0)) begun1.rowLen).1.frameRoom 0 1 = true
    ∧ (((oneDesc begun1).xlateRow 0 begun1 false (begun1.rowVa 0 (begun1.tag 0)) begun1.rowLen).2.1.flatMap (fun g => segRequests 0 0 (g.va - begun1.rowVa 0 (begun1.tag 0)) begun1.alloc [g])).length = 1
    ∧ ({ desc1 with words := kindOf 2 } : Desc).kind = 2 ∧ ({ desc1 with words := kindOf 3 } : Desc).kind = 3 := by decide +kernel
theorem test_meets_RowPush : (arrived 0).queue = some 0 ∧ (arrived 0).done < (arrived 0).rows ∧ (arrived 0).done < (arrived 0).translated ∧ ((arrived 0).asm.find? (fun e => e.1 == (arrived 0).done)).map (·.2) = some ⟨List.replicate 256 0, 0, false⟩
    ∧ (oneDesc (arrived 0)).room 0 0 1 = true ∧ (oneDesc (arrived 0)).earlierAll 0 (arrived 0) (fun _ e => decide (e.rows ≤ e.done)) = true ∧ ((arrived 0).loadRow (List.replicate 256 0)).2 = false ∧ (arrived 2).queue = some 0 := by decide +kernel
/-- A STORE with an entry in its queue. -/
def storing (e : QEntry) : State := (oneDesc (arrived 1)).setQueue 0 8 [e]
theorem test_meets_StoreRow : (arrived 1).kind = 1 ∧ (arrived 1).started = true ∧ (arrived 1).held = none ∧ (arrived 1).done < (arrived 1).rows ∧ (storing entry).earlierAll 0 (arrived 1) (fun _ e => decide (e.rows ≤ e.done)) = true
    ∧ (storing entry).lookups 0 = true ∧ (storing entry).headReady 0 (8 + (arrived 1).queueNo) = true
    ∧ ((storing entry).pop 0 (8 + (arrived 1).queueNo)).isSome = true ∧ entry.valid = true ∧ (storing entry).storeHeld 0 (arrived 1) entry = false
    ∧ (match (storing entry).pop 0 (8 + (arrived 1).queueNo) with | some (e, s') => (s'.xlateRow 0 (arrived 1) true ((arrived 1).rowVa 0 e.tag.toNat) ((arrived 1).storeBytes e.row).length).2.2 | none => some (0, 0)) = none
    ∧ ((storing { entry with valid := false }).pop 0 (8 + (arrived 1).queueNo)).isSome = true := by decide +kernel
theorem test_meets_DescriptorComplete : ({ arrived 0 with done := 2 } : Desc).kind ≠ 3 ∧ ({ arrived 0 with done := 2 } : Desc).rows ≤ 2 ∧ ((vm.ae 0).frame ++ (vm.ae 0).again ++ (vm.ae 0).slots).any (fun r => r.desc == some 0) = false
    ∧ (vm.ae 0).writes.any (fun w => w.desc == some 0) = false ∧ (vm.cache 0).prefetch.any (fun f => f.desc == some 0) = false ∧ (arrived 0).async = none := by decide +kernel
/-- A read request for the first row; a STORE's write; a write-back. -/
def req1 : Req := { desc := some 0, va := 0x1000, pa := 0x1000, len := 256 }
def reqW (back : Bool) : Req := { desc := if back then none else some 0, parts := [⟨0x1040, List.replicate 64 9, false⟩] }
/-- One in the sorting frame, and issued. -/
def asked (r : Req) : State := (oneDesc (arrived 0)).modAe 0 (fun a => { a with frame := [r] })
def issued1 : State := (oneDesc (arrived 0)).modAe 0 (fun a => { a with slots := [req1] })
/-- A write waiting at its stack. -/
def write1 : PendWrite := { parts := [⟨0x1040, List.replicate 64 9, false⟩] }
/-- A prefetch of sector 32 in flight, and a write waiting at its stack. -/
def fetching (b : Bool) : State := (vm.modCache 0 (fun c => { c with prefetch := [⟨32, none, b⟩] })).setReg (.mc 0) 0 1
def writing : State := vm.modAe 0 (fun a => { a with writes := [write1] })
theorem test_meets_Requests : (asked req1).aeStarts 0 = true ∧ ((asked req1).ae 0).frame[0]? = some req1 ∧ ((asked req1).ae 0).nextIssue ≤ 5 ∧ (asked req1).chooseRequest 0 5 = some 0 ∧ (asked req1).slotsFull 0 = false ∧ (asked req1).lookups 0 = true ∧ ((asked req1).ae 0).again = []
    ∧ req1.isWrite = false ∧ (asked (reqW false)).chooseRequest 0 5 = some 0 ∧ (reqW false).isWrite = true ∧ (reqW false).evict = false ∧ (asked (reqW false)).cacheOn 0 = false ∧ (asked (reqW true)).chooseRequest 0 5 = some 0 ∧ (reqW true).evict = true
    ∧ (issued1.ae 0).slots[0]? = some req1 ∧ issued1.lookups 0 = true ∧ req1.dropped = false
    ∧ ((fetching true).cache 0).prefetch[0]? = some ⟨32, none, true⟩ ∧ (fetching true).frozen (.mc 0) = false ∧ ((fetching false).cache 0).prefetch[0]? = some ⟨32, none, false⟩
    ∧ ((fetching false).cache 0).tray.length < 64 ∧ ((fetching false).ae 0).writes = [] ∧ ((fetching false).ae 0).frame = [] ∧ ((fetching false).region (regionOfPa (32 * 128))).fenced = false
    ∧ (writing.ae 0).writes[0]? = some write1 ∧ ((writing.ae 0).writes.take 0).any (fun v => shares v.sectors write1.sectors) = false ∧ write1.tile = none ∧ write1.parts = [⟨0x1040, List.replicate 64 9, false⟩] ∧ (writing.region (regionOfPa 0x1040)).fenced = false := by decide +kernel
theorem test_meets_Fences : vm.issuesNow k0 ∧ vm.onCore 0 0 0 0 0 ∧ vm.fenceWrites 0 = [] ∧ (vm.ae 0).descs = [] ∧ writing.fenceWrites 0 ≠ [] ∧ ((oneDesc desc1).ae 0).descs ≠ [] ∧ vm.frozen (.mc 0) = false ∧ vm.priv 0 = true
    ∧ (vm.withInts 0 [65536, 0x1000]).onCore 0 1 0 0 0 ∧ (vm.withInts 0 [65536, 0x1000]).onCore 0 2 0 0 0 ∧ (vm.withInts 0 [65536, 0x1000]).readsGo 0 [] = true := by unfold State.issuesNow State.onCore; decide +kernel
/-- A clean requested by register and running. -/
def cleaning : State := vm.modCache 0 (fun c => { c with maint := [⟨2, false, true⟩] })
/-- A core held by an operation by address. -/
def cleaned : State := vm.modCore 0 (fun c => { c with waiting := some { kind := .maint 0, since := 0, policy := 0, instr := .mccln k0 } })
theorem test_meets_Maintenance : vm.target .mgmt (vm.bar0 (.mc 127) + 4) true = .frame (.mc 127) 4 0 ∧ vm.target .mgmt (vm.bar0 (.mc 0)) true = .frame (.mc 0) 0 0 ∧ vm.target .mgmt (vm.bar0 (.ae 0) + 0xC) true = .frame (.ae 0) 0xC 0
    ∧ vm.target .mgmt (vm.bar0 (.ae 0) + 0x40) true = .frame (.ae 0) 0x40 0 ∧ (3 : W32).toNat % 2 = 1 ∧ (tget (vm.frame (.mc 0)).flags 0x10 0).getLsbD 0 = false ∧ (tget ((vm.raise (.mc 0) 0x10 0).frame (.mc 0)).flags 0x10 0).getLsbD 0 = true
    ∧ (cleaning.cache 0).maint = ⟨2, false, true⟩ :: [] ∧ cleaning.frozen (.mc 0) = false ∧ cleaning.pwr.ready = true ∧ cleaning.backsLeft 0 1 = false ∧ cleaning.byAddressDone 0 = false
    ∧ ((cleaned.core 0).waiting.map (·.kind)) = some (.maint 0) ∧ cleaned.backsLeft 0 2 = false := by decide +kernel
theorem test_meets_Sync : (vm.withInts 0 [2 ^ 31, 63]).issuesNow k0 ∧ (vm.port 0).length < 16 ∧ (vm.withInts 0 [2 ^ 31, 63]).onCore 0 2 0 0 0 ∧ vm.objOf (vm.coreCtx 0) 63 = some 63 ∧ (vm.withInts 0 [9, 1, 63]).onCore 0 3 0 0 0
    ∧ (vm.withInts 0 [63]).onCore 0 1 0 0 0 ∧ (vm.withInts 0 [63]).onCore 0 1 1 0 0 ∧ vm.waitOf (.core 0) = none ∧ (vm.obj 63).target ≤ (vm.obj 63).counter ∧ ((vm.syncAct 63 2 1 0 0 0).obj 63).counter < ((vm.syncAct 63 2 1 0 0 0).obj 63).target
    ∧ vm.objOf (vm.coreCtx 0) 4096 = none ∧ vm.masked 0 14 = false := by unfold State.issuesNow State.onCore; decide +kernel
/-- A core that holds a TSTREAM for time 100. -/
def held100 : State := match exec (.tstream k0 stream1) (after (.tstartAt k0 1) (loaded.withInts 0 [100])) with | .next t => t | _ => loaded
theorem test_meets_Postmark : (((at_ vm 1000).advance 1000).withInts 0 [1000]).issuesNow k0 ∧ (((at_ vm 1000).advance 1000).withInts 0 [1000]).onCore 0 1 0 0 0 ∧ (1000 : W64).toNat ≤ (((at_ vm 1000).advance 1000).copyOf (regionOf 0)).toNat ∧ (((at_ vm 1000).advance 1000).core 0).waiting = none
    ∧ ¬(1000 : W64).toNat < (((at_ vm 1000).advance 1000).copyOf (regionOf 0)).toNat ∧ (((at_ vm 1000).advance 1000).copyOf (regionOf 0)).toNat < (1001 : W64).toNat ∧ (999 : W64).toNat < (((at_ vm 1000).advance 1000).copyOf (regionOf 0)).toNat := by unfold State.issuesNow State.onCore; decide +kernel
theorem test_meets_Launch : (((at_ held100 100).advance 100).core 0).waiting.map (·.kind) = some .tstart ∧ ((at_ held100 100).advance 100).issuesNow k0 ∧ ((at_ held100 100).advance 100).onCore 0 0 0 0 0 ∧ (((at_ held100 100).advance 100).core 0).pc.toNat % 16 = 0
    ∧ (streamConds (((at_ held100 100).advance 100).tileView 0 1) stream1).all (fun c => !c.bad) = true ∧ ((at_ held100 100).advance 100).dispatchWait 0 [1] = none ∧ ((at_ held100 100).advance 100).armedAt 0 1 = some 100 ∧ (100 : W64).toNat ≤ (((at_ held100 100).advance 100).copyOf (regionOf 0)).toNat
    ∧ (vm.core 0).waiting = none ∧ (after (.tstartAt k0 1) (loaded.withInts 0 [0])).armedAt 0 1 = some 0 ∧ (0 : W64).toNat < ((at_ (after (.tstartAt k0 1) (loaded.withInts 0 [0])) 7).copyOf (regionOf 0)).toNat
    ∧ ((after (.tstartAt k0 1) (loaded.withInts 0 [0])).core 0).waiting = none := by
  unfold State.issuesNow State.onCore; decide +kernel
/-- One operation in the port of core 0. -/
def op1 (kind : Nat) : SyncOp := { kind := kind, ident := 63, obj := 63, n := 1, t := 5, pc := 0, before := [] }
theorem test_meets_SyncPort : (vm.setPort 0 [op1 0]).portHolds 0 63 = true ∧ vm.portHolds 0 63 = false ∧ ((vm.setPort 0 [op1 0]).withInts 0 [63]).issuesNow k0
    ∧ (((vm.setPort 0 [op1 0]).withInts 0 [63]).port 0).length < 16 ∧ ((vm.setPort 0 [op1 0]).withInts 0 [63]).onCore 0 1 1 0 0 := by unfold State.issuesNow State.onCore; decide +kernel
theorem test_meets_SyncEvents : (vm.setPort 0 [op1 0]).nextOp 0 [] ((vm.setPort 0 [op1 0]).port 0) = some (op1 0, []) ∧ (op1 3).kind = 3 ∧ ((vm.setPort 0 [op1 3]).copyOf (objRegion 63)).toNat ≤ (5 : W64).toNat ∧ (tget vm.sync.timers (objRegion 63) []).length < 256
    ∧ ([⟨63, 63, 1, 5, 0, 0⟩] : List SyncTimer)[0]? = some ⟨63, 63, 1, 5, 0, 0⟩ ∧ (5 : W64).toNat ≤ (((at_ vm 5).advance 5).copyOf 0).toNat ∧ ((at_ vm 5).advance 5).frozen (.sync 0) = false
    ∧ ((((at_ vm 100000).advance 100000).modCore 0 (fun c => { c with waiting := some { kind := .sync 63, since := 0, policy := 1, instr := .wait k0 } })).core 0).waiting.map (fun w => w.policy.getLsbD 0 && !w.lowPower) = some true
    ∧ (0 : W64).toNat + max 1 ((1 : W32).toNat / 256 % 4096) * 100 ≤ (((at_ vm 100000).advance 100000).copyOf (regionOf 0)).toNat
    ∧ (((vm.advance 0).modCore 0 (fun c => { c with waiting := some { kind := .swaitT 1500, since := 0, policy := 1, instr := .swaitT k0, lowPower := true } })).core 0).waiting.map (fun w => (w.kind, w.lowPower)) = some (.swaitT 1500, true)
    ∧ (1500 : W64).toNat ≤ ((vm.advance 0).copyOf (regionOf 0)).toNat + 1500 := by decide +kernel
/-- Core 0 has waited since 0, its region reported so, its context's dump area is at 0x200000. -/
def stuck : State :=
  let s := (vm.setReg (.sync 0) 0x100 0x200000).modCore 0 (fun c => { c with waiting := some { kind := .sync 63, since := 0, policy := 0, instr := .wait k0 } })
  { s with sync := { s.sync with reports := [((0, 0), (100000000, some 0))] } }
theorem test_meets_Deadlock : (stuck.advance 0).frozen (.sync 0) = false ∧ (stuck.advance 0).pwr.ready = true ∧ (stuck.advance 0).coresOf 0 0 ≠ [] ∧ (stuck.advance 0).deadlocked 0 = true ∧ (stuck.advance 0).pmArea 0 = some 0x200000
    ∧ ([⟨0, 0x200000, []⟩] : List Dump).find? (fun y => y.ctx == 0) = some ⟨0, 0x200000, []⟩ ∧ stuck.sync.frozen.contains 0 = false ∧ (stuck.spanStart 0 0).isSome = true ∧ ((vm.advance 0).deadlocked 0 = false)
    ∧ (stuck.setReg (.sync 0) 0x100 0).pmArea 0 = none ∧ (stuck.setReg (.sync 0) 0x100 0).deadlocked 0 = true := by decide +kernel
/-- The end of a dump that has no record, and its header's place at a frozen stack. -/
def dumping (held : Bool) : State :=
  let s : State := { vm with sync := { vm.sync with dumps := [⟨0, 0x200000, [0, 0]⟩] } }
  if held then s.modFrame (.stk 0 0) (fun f => { f with frozen := true }) else s
theorem test_meets_DumpDone : (dumping false).sync.dumps.find? (fun y => y.ctx == 0) = some ⟨0, 0x200000, [0, 0]⟩ ∧ (((dumping false).writePhys (.sync 0) 0 0x200000 [0, 0] false).blocked = false) ∧ (((dumping true).writePhys (.sync 0) 0 0x200000 [0, 0] false).blocked = true) := by decide +kernel
theorem test_meets_FalseGuardBundles : (base.core 0).pc.toNat % 16 = 0 ∧ (⟨1, 0, 0, 0, 0, 0, 0⟩ : WeightLoad).legal = true ∧ stream1.legal = true ∧ drain1.legal = true ∧ opdHead 8 = true ∧ opdTail 0x10 = true := by decide
theorem test_meets_EnteringFault : vm.inDf 0 = false ∧ vm.ksp 0 + 128 ≤ 0x7FF00 ∧ (4 : Nat) < 64 ∧ Memory.wf (vm.core 0).dmem = true := by decide
/-- KSP is no multiple of 128. -/
def badKsp : State := vm.setReg (.cu 0) 0x528 0x8040
theorem test_meets_RetxBadKsp : badKsp.issuesNow k0 ∧ badKsp.onCore 0 0 0 0 0 ∧ badKsp.priv 0 = true ∧ badKsp.inDf 0 = false ∧ badKsp.kspReason 0 = some 1 ∧ Memory.wf (badKsp.core 0).dmem = true := by unfold State.issuesNow State.onCore; decide
/-- An area with one group in it: of the integer stack, of the V-stack. -/
def iArea (s : State) : State := s.setReg (.cu 0) 0x404 (s.reg (.cu 0) 0x400 + 64)
def vArea (s : State) : State := s.setReg (.cu 0) 0x414 (s.reg (.cu 0) 0x410 + 1024)
/-- Every slot of the V-stack in use, every entry of the integer stack. -/
def vFull (s : State) : State := s.withSlots 0 (List.replicate 16 ⟨3, 0⟩)
def iFull (s : State) : State := s.withInts 0 (List.replicate 32 3)
theorem test_meets_Fills : (iArea (vm.withInts 0 [5])).issuesNow k0 ∧ ((iArea (vm.withInts 0 [5])).core 0).istk = [5] ∧ ((iArea vm).reg (.cu 0) 0x404 ≠ (iArea vm).reg (.cu 0) 0x400) ∧ 64 ≤ (iArea vm).reg (.cu 0) 0x404 ∧ (iArea vm).reg (.cu 0) 0x404 < 2 ^ 19
    ∧ (vArea vm).issuesNow k0 ∧ ((vArea vm).core 0).vstk = [] ∧ (vArea vm).reg (.cu 0) 0x414 ≠ (vArea vm).reg (.cu 0) 0x410 ∧ 1024 ≤ (vArea vm).reg (.cu 0) 0x414 ∧ (vArea vm).reg (.cu 0) 0x414 < 2 ^ 19 := by unfold State.issuesNow; decide
theorem test_meets_VSpill : (vFull vm).issuesNow k0 ∧ ((vFull vm).core 0).vstk = ⟨3, 0⟩ :: List.replicate 14 ⟨3, 0⟩ ++ [⟨3, 0⟩] ∧ (vFull vm).reg (.cu 0) 0x414 % 1024 = 0 ∧ (vFull vm).reg (.cu 0) 0x414 + 1024 ≤ (vFull vm).reg (.cu 0) 0x418
    ∧ (vFull vm).reg (.cu 0) 0x414 + 1024 ≤ 0x7FF00 ∧ Memory.wf ((vFull vm).core 0).dmem = true ∧ ((vFull vm).setReg (.cu 0) 0x418 0).reg (.cu 0) 0x418 < ((vFull vm).setReg (.cu 0) 0x418 0).reg (.cu 0) 0x414 + 1024 := by unfold State.issuesNow; decide +kernel
theorem test_meets_Exhausted : vm.reg (.cu 0) 0x414 = vm.reg (.cu 0) 0x410 ∧ vm.masked 0 9 = false ∧ base.masked 0 9 = true ∧ base.issuesNow k0 ∧ base.reg (.cu 0) 0x414 = base.reg (.cu 0) 0x410 ∧ (base.core 0).vstk = []
    ∧ (base.core 0).istk = [] ∧ base.reg (.cu 0) 0x404 = base.reg (.cu 0) 0x400 ∧ ((iFull base).setReg (.cu 0) 0x408 0).issuesNow k0 ∧ ((iFull base).core 0).istk = 3 :: List.replicate 31 3 ∧ ((iFull base).setReg (.cu 0) 0x408 0).masked 0 9 = true
    ∧ ((iFull base).setReg (.cu 0) 0x408 0).reg (.cu 0) 0x408 < (iFull base).reg (.cu 0) 0x404 + 64 ∧ ((iFull vm).setReg (.cu 0) 0x408 0).masked 0 9 = false := by unfold State.issuesNow; decide
/-- VWRED.SUM of 8,192 elements at the end of its first chunk, a doorbell having rung; the second chunk's reads then meet no mapping. -/
def stopping : State := ((vm.withInts 0 [8192, 0x1000]).modCore 0 (fun c => { c with resum := some { instr := .vwredSum k0, chunk := 0, partials := List.replicate 128 0, flags := 0, poison := false, data := some [] } })).modFrame (.cu 0) (fun f => { f with flags := tset f.flags 0x254 1 })
def unmapped : State := (vm.withInts 0 [4096, 0x400000000000]).modCore 0 (fun c => { c with resum := some { instr := .vwredSum k0, chunk := 0, partials := List.replicate 128 0, flags := 0, poison := false } })
theorem test_meets_ChunkStop : chunkCount (stopping.resumArgs 0 (.vwredSum k0)).2.2 = 2 ∧ (stopping.interruptNow 0).isSome = true ∧ stopping.ihold 0 = false ∧ stopping.inDf 0 = false ∧ stopping.frozen (.cu 0) = false ∧ stopping.ctxFrozen 0 = false
    ∧ ((stopping.resumStop 0 { instr := .vwredSum k0, chunk := 1, partials := List.replicate 128 0, flags := 0, poison := false }).boundaryCause 0).isSome = true
    ∧ unmapped.openGoes 0 0x400000000000 16384 = true ∧ (unmapped.xlateRange 0 (unmapped.access 0 false) 0x400000000000 16384).2 = .inl (1, 0x400000000000) ∧ (1 : Nat) ≠ xHeld ∧ unmapped.masked 0 4 = false
    ∧ (unmapped.resumStop 0 { instr := .vwredSum k0, chunk := 0, partials := List.replicate 128 0, flags := 0, poison := false }).boundaryCause 0 = none := by decide +kernel
/-- VXENT of 4 elements at 0x1000, all taken in, with t inside or outside them. -/
def xent (t : W64) : State := (vm.withInts 0 [t, 4, 0x1000]).modCore 0 (fun c => { c with resum := some { instr := .vxent k0, chunk := 1, partials := List.replicate 128 0, flags := 0, poison := false } })
theorem test_meets_Vxent : chunkCount ((xent 3).resumArgs 0 (.vxent k0)).2.2 = 1 ∧ 4 * ((xent 3).itop 0 0).toNat < ((xent 3).resumArgs 0 (.vxent k0)).2.2 ∧ (xent 3).rangeFaults 0 false false (0x1000 + 12) 4 = [] ∧ (xent 3).openGoes 0 (0x1000 + 12) 4 = true
    ∧ ((xent 4).resumArgs 0 (.vxent k0)).2.2 ≤ 4 * ((xent 4).itop 0 0).toNat := by decide +kernel
/-- VWRED.SUM stopped before chunk 1, its partials in one slot. -/
def takenUp : State := ((vm.setReg (.cu 0) 0x240 (2 ^ 31 + 1)).withInts 0 [8192, 0x1000]).withSlots 0 [⟨0, 0⟩]
theorem test_meets_TakenUp : takenUp.issuesNow k0 ∧ (takenUp.reg (.cu 0) 0x240).testBit 31 = true ∧ takenUp.reg (.cu 0) 0x240 / 2 ^ 16 % 16 = 0 ∧ (takenUp.core 0).vstk = ⟨0, 0⟩ :: [] ∧ takenUp.onCore 0 2 2 1 1
    ∧ takenUp.openGoes 0 (0x1000 + 16384 * (takenUp.reg (.cu 0) 0x240 % 2 ^ 13)) (chunkBytes 32768 1) = true ∧ takenUp.copyHeld 0 (.vwredSum k0) 1 = false ∧ (vm.withInts 0 [20000, 0x1000, 0x8000]).copyHeld 0 (.mcopy k0) 0 = false ∧ copying.copyHeld 0 (.mcopy k0) 1 = false := by
  unfold State.issuesNow State.onCore; decide +kernel
theorem test_meets_ImageWalk : (withImage.withInts 0 [0x8000]).walkHeld 0 (withImage.access 0 true) 0x8000 (imageBytes 0) = false := by decide +kernel
/-- A GATHER of two elements of four bytes whose indices lie at 0x1000; a PREFETCH of two rows. -/
def gather1 : Desc := { words := [2 + 2 ^ 11 + 2 ^ 12 * 0, 0x2000, 0x1000, 2, 4, 0, 0, 0], user := false, seq := 0, waiting := false, started := true }
def indexed : State := ({ vm with mem := memPut vm.mem 0x1000 (u32 1 ++ u32 2) } : State).setDesc 0 0 gather1
def prefetch1 : Desc := { words := kindOf 3, user := false, seq := 0, waiting := false, started := true }
theorem test_meets_Gather : gather1.kind = 2 ∧ gather1.translated < gather1.rows ∧ indexed.aeStarts 0 = true ∧ indexed.lookups 0 = true ∧ (indexed.queue 0 0).length + indexed.reserved 0 0 < 64 ∧ indexed.frameRoom 0 1 = true
    ∧ (indexed.xlateRange 0 ⟨false, false⟩ 0x1000 4).2 = .inr [⟨0x1000, 0x1000, 4, false⟩] ∧ gather1.bits_ 2 0 48 = 0x1000 ∧ (indexed.xlateRange 0 ⟨false, false⟩ 0x1000 4).1.olderStore 0 0 0x1000 4 = false
    ∧ (indexed.xlateRange 0 ⟨false, false⟩ 0x1000 4).1.readsGo 0 [⟨0x1000, 0x1000, 4, false⟩] = true ∧ gather1.esize = 4 ∧ gather1.elemVa 1 = 0x2004 ∧ indexed.olderStore 0 0 0x2004 4 = false ∧ indexed.walkHeld 0 ⟨false, false⟩ 0x2004 1 = false
    ∧ leNat ((indexed.xlateRange 0 ⟨false, false⟩ 0x1000 4).1.readSegs 0 gather1.alloc [⟨0x1000, 0x1000, 4, false⟩]).bytes = 1 := by decide +kernel
theorem test_meets_PrefetchRow : prefetch1.kind = 3 ∧ prefetch1.translated < prefetch1.rows ∧ (oneDesc prefetch1).olderStore 0 0 (prefetch1.rowVa 0 (prefetch1.tag 0)) prefetch1.rowLen = false
    ∧ (oneDesc prefetch1).prefetchGoes 0 false (rowSectors (prefetch1.rowVa 0 (prefetch1.tag 0)) prefetch1.rowLen) = true ∧ vm.prefetchDropped 0 32 false = true ∧ (fetching true).prefetchDropped 0 33 false = false
    ∧ (oneDesc begun1).walkHeld 0 ⟨false, false⟩ (begun1.rowVa 0 (begun1.tag 0)) begun1.rowLen = false := by decide +kernel
/-- A descriptor with ASYNC on object 63. -/
def arriving : Desc := { arrived 0 with words := kindOf 0 |>.mapIdx (fun i w => if i = 0 then w + 2 ^ 63 + 63 * 2 ^ 51 else w), done := 2 }
theorem test_meets_Arrival : arriving.async = some 63 ∧ arriving.kind ≠ 3 ∧ arriving.rows ≤ arriving.done ∧ (oneDesc arriving).objOf ((oneDesc arriving).coreCtx 0) 63 = some 63 := by decide +kernel
theorem test_meets_WriteHeld : ((writing.modFrame (.stk 0 0) (fun f => { f with frozen := true })).ae 0).writes[0]? = some write1 ∧ write1.parts.any (fun p => (writing.modFrame (.stk 0 0) (fun f => { f with frozen := true })).stackHeld p.pa) = true
    ∧ writing.stackHeld 0x1040 = false ∧ writing.aeStarts 0 = true ∧ issued1.behind 0 (issued1.fromMemory 0 req1.on req1.sectors) = false ∧ (fetching false).behind 0 [32] = false := by decide +kernel
/-- A tray with one sector. -/
def trayed : State := vm.modCache 0 (fun c => { c with tray := [⟨32, List.replicate 128 0, false⟩] })
theorem test_meets_Acquire : (trayed.cache 0).tray ≠ [] ∧ (vm.withInts 0 [65536, 0x1000]).walkHeld 0 (vm.access 0 false) 0x1000 (min 65536 65536) = false ∧ (vm.maintRequest 0 2 true).cache 0 ≠ {} := by decide +kernel
/-- 256 timers in region 0. -/
def timed : State := let s := vm.setPort 0 [op1 3]; { s with sync := { s.sync with timers := [(0, List.replicate 256 ⟨1, 1, 1, 9, 0, 0⟩)] } }
theorem test_meets_Timers : (tget timed.sync.timers (objRegion 63) []).length = 256 ∧ timed.masked 0 13 = false ∧ base.masked 0 13 = true ∧ (op1 3).t.toNat < (((at_ vm 6).advance 6).copyOf (objRegion 63)).toNat
    ∧ ([⟨63, 63, 1, 5, 0, 0⟩] : List SyncTimer).take 0 = [] ∧ ¬((1 : W32).getLsbD 0 = false) := by decide +kernel

/-! ## Registers as commands -/

theorem test_meets_RegisterViews : regInfo (.evt 0) 0x10 = some ⟨.plain, 0xFFFF03, 0xA00⟩ ∧ (FrameId.evt 0).privileged = false ∧ (∀ w, w < 4 → vm.target .mgmt (atView 0x1008010 w) true = .frame (.evt 0) 0x10 w) := by decide +kernel
theorem test_meets_RegisterViews_acts : ∀ x y b, vm.writeActs (.evt 0) 0x10 x y b = none := fun _ _ _ => rfl
theorem test_meets_StatusWrite : (∃ m r, regInfo (.stk 0 0) 0x40 = some ⟨.status, m, r⟩) ∧ FrameId.stk 0 0 ≠ .srm ∧ FrameId.stk 0 0 ≠ .srmCal ∧ (∀ d, FrameId.stk 0 0 ≠ .ptb d) ∧ stk4.target .mgmt (atView 0x1800040 0) true = .frame (.stk 0 0) 0x40 0 :=
  ⟨⟨_, _, rfl⟩, by decide, by decide, fun _ => FrameId.noConfusion, by decide +kernel⟩
/-- No flag is set in the frame, so none lags. -/
theorem test_meets_Flags : ∀ p c, (tget (State.reset.frame (.stk 0 0)).flags p 0).getLsbD c = true → (State.reset.frame (.stk 0 0)).stamps.any (fun e => e.1 == (p, c)) = true ∧ ((State.reset.frame (.stk 0 0)).accession - tget (State.reset.frame (.stk 0 0)).stamps (p, c) 0).toNat ≤ 32767 := by
  intro p c h; simp [State.reset, State.frame, tget] at h
/-- A register with a parity mismatch, reported or not. -/
def flipped (b : Bool) : State := vm.modFrame (.cu 0) (fun f => { f with badParity := [0x400], reported := if b then [0x400] else [] })
/-- The module is not ready. -/
def dark : State := { vm with pwr := { vm.pwr with ready := false } }
theorem test_meets_Reads : capturesLow (.cu 0) 0x480 = true ∧ vm.target .mgmt (vm.bar0 (.cu 0) + 0x480) false = .frame (.cu 0) 0x480 0 ∧ setHas (vm.frame (.cu 0)).badParity 0x480 = false ∧ capturesLow (.cu 0) 0x484 = false
    ∧ (∃ m r, regInfo (.cu 0) 0x484 = some ⟨.ctrHi, m, r⟩) ∧ vm.target .mgmt (vm.bar0 (.cu 0) + 0x484) false = .frame (.cu 0) 0x484 0 := by
  refine ⟨?_, ?_, ?_, ?_, ⟨_, _, rfl⟩, ?_⟩ <;> decide +kernel
theorem test_meets_Counters : regInfo (.evt 0) 0x20 = some ⟨.ctrLo, 0xFFFFFFFF, 0⟩ ∧ regInfo (.evt 0) 0x24 = some ⟨.ctrHi, 0xFFFF, 0⟩ ∧ vm.target .mgmt (atView 0x1008020 0) true = .frame (.evt 0) 0x20 0 ∧ vm.target .mgmt (atView 0x1008024 0) true = .frame (.evt 0) 0x24 0 := by decide +kernel
theorem test_meets_Parity : setHas ((flipped true).frame (.cu 0)).badParity 0x400 = true ∧ setHas ((flipped true).frame (.cu 0)).reported 0x400 = true ∧ setHas ((flipped false).frame (.cu 0)).reported 0x400 = false
    ∧ (flipped true).target .mgmt (atView 0x1100400 0) false = .frame (.cu 0) 0x400 0 ∧ regInfo (.cu 0) 0x400 ≠ none := by decide +kernel
theorem test_meets_PoweredDown : dark.target .mgmt 0x2008000 true = .poweredDown ∧ dark.target .mgmt 0x2008000 false = .poweredDown ∧ dark.target (.host 0) 0x2008000 true = .poweredDown ∧ dark.target (.host 0) 0x2008000 false = .poweredDown
    ∧ dark.target (.core 0) 0x2008000 true = .poweredDown ∧ dark.target (.core 0) 0x2008000 false = .poweredDown ∧ dark.masked 0 7 = false := by decide +kernel
theorem test_meets_UnitWrites : vm.target .mgmt (vm.cuAddress .mgmt 127 0x538) true = .frame (.cu 127) 0x538 0 ∧ vm.target (.host 0) (vm.cuAddress (.host 0) 0 0x210) true = .frame (.cu 0) 0x210 0
    ∧ vm.target .mgmt (vm.bar0 (.tcu 0 3) + 4) true = .frame (.tcu 0 3) 4 0 ∧ (vm.arr 0 3).ramp = none ∧ ((vm.modArr 0 3 (fun x => { x with ramp := some ⟨0, 9, 0⟩ })).arr 0 3).ramp ≠ none
    ∧ vm.target .mgmt 0x100000 true = .frame .srm 0 0 ∧ vm.target .mgmt (vm.bar0 (.upe 7 1) + 0x408 + 16 * 63) true = .frame (.upe 7 1) (0x408 + 16 * 63) 0 ∧ (0x80000000 : W32).getLsbD 31 = true
    ∧ (vm.reg (.upe 7 1) (0x408 + 16 * 63)).testBit 31 = false ∧ vm.target .mgmt (vm.bar0 .revt + 0x108 + 16 * 63) true = .frame .revt (0x108 + 16 * 63) 0 ∧ (vm.reg .revt (0x108 + 16 * 63)).testBit 31 = false := by decide +kernel
/-- Test mode, in which the test bench of region 0 may flip the parity bit of CORE_ISBASE of core 0. -/
def benched : State := { vm with srm := { vm.srm with testEnable := true } }
theorem test_meets_ParityFlip : benched.target .mgmt (benched.bar0 (.ptb 0) + 0x20) true = .frame (.ptb 0) 0x20 0 ∧ benched.srm.testEnable = true ∧ (BitVec.ofNat 32 (2 ^ 31 + 0x100400)).getLsbD 31 = true
    ∧ benched.regionFrame 0 ((BitVec.ofNat 32 (2 ^ 31 + 0x100400)).toNat % 2 ^ 24) = some (some (.cu 0)) ∧ hasParity (.cu 0) ((BitVec.ofNat 32 (2 ^ 31 + 0x100400)).toNat % 2 ^ 24 % 0x1000) = true := by decide +kernel
theorem test_meets_Causes : vm.siteOf 0 ≠ 0xFF ∧ vm.atBoundary 0 = true ∧ vm.boundaryCause 0 = none ∧ ((vm.pendCause 0 { code := 9 }).boundaryCause 0).isSome = true ∧ (vm.pendCause 0 { code := 9 }).atBoundary 0 = true
    ∧ ((vm.pendCause 0 { code := 9 }).core 0).pend = { code := 9 } :: [] ∧ (vm.pendCause 0 { code := 9 }).masked 0 9 = false ∧ (vm.pendCause 0 { code := 9 }).inDf 0 = false ∧ (vm.pendCause 0 { code := 9 }).kspReason 0 = none
    ∧ (vm.core 0).tileHold = false ∧ (vm.core 0).entering = false ∧ decodeCore 0 ((vm.core 0).pc.toNat % 16 == 0) 0x01100000 0 0 0 = none ∧ vm.masked 0 0 = false ∧ base.masked 0 0 = true
    ∧ vm.reg (.cu 0) 0x530 + 2 ^ 32 * vm.reg (.cu 0) 0x534 ≤ ((at_ vm 0xFFFFFFFFFFFFFFFF).advance 0).copyOf (regionOf 0) ∧ ((vm.advance 0).copyOf (regionOf 0)).toNat < vm.reg (.cu 0) 0x530 + 2 ^ 32 * vm.reg (.cu 0) 0x534 := by decide +kernel
/-- The doorbell of core 0 rung, held back by IHOLD or not. -/
def rung (hold : Bool) : State := ((if hold then vm.setStat 0 3 else vm).modFrame (.cu 0) (fun f => { f with flags := tset f.flags 0x254 1 }))
theorem test_meets_Interrupts : (rung false).atBoundary 0 = true ∧ ((rung false).core 0).pend.all (fun x => decide (32 ≤ x.code) || (rung false).masked 0 x.code) = true ∧ ((rung false).pendingMask 0).testBit 33 = true ∧ (rung false).masked 0 33 = false
    ∧ ((rung false).pendingMask 0).testBit 32 = false ∧ (rung false).ihold 0 = false ∧ (rung false).inDf 0 = false ∧ (rung false).kspReason 0 = none ∧ (rung true).ihold 0 = true ∧ (rung true).atBoundary 0 = true := by decide +kernel
/-- A strongroom write as a core makes it, and the flip of PTB_FLIP's own parity; every ring of an update engine that may be enabled. -/
def fullRings : State := (List.range 16).foldl (fun s c => s.setReg (.upe 7 1) (0x408 + 16 * c) (2 ^ 31)) vm
theorem test_meets_UnitWrites2 : (BitVec.ofNat 32 (2 ^ 31 + 0xE00020)).getLsbD 31 = true ∧ (BitVec.ofNat 32 (2 ^ 31 + 0xE00020)).toNat % 2 ^ 24 = 0xE00020 ∧ vm.atBoundary 0 = true ∧ vm.boundaryCause 0 = none ∧ (0x100000 : BitVec 28).toNat < 0x108000
    ∧ 16 ≤ fullRings.enabledRings (.upe 7 1) ∧ vm.enabledRings (.upe 7 1) < 16 ∧ vm.rangeLent 1 0 (0x80 + 64 * 2 ^ 6) = false ∧ (0 + (0x80 + 64 * 2 ^ 16) ≤ memTop) ∧ (0x42 : W32).setWidth 16 ≠ (0 : BitVec 16) := by decide +kernel
theorem test_meets_Causes2 : (vm.modCore 0 (fun c => { c with entering := true })).atBoundary 0 = true ∧ (vm.modCore 0 (fun c => { c with entering := true })).boundaryCause 0 = none ∧ ((vm.modCore 0 (fun c => { c with entering := true })).core 0).entering = true
    ∧ ((vm.modCore 0 (fun c => { c with entering := true })).core 0).tileHold = false ∧ (vm.modCore 0 (fun c => { c with entering := true })).masked 0 0 = false := by decide +kernel
theorem test_meets_Counters_acts : (∀ x y b, vm.writeActs (.evt 0) 0x20 x y b = none) ∧ ∀ x y b, vm.writeActs (.evt 0) 0x24 x y b = none := ⟨fun _ _ _ => rfl, fun _ _ _ => rfl⟩

/-! ## Engines, links, messages -/

/-- Update engine 0 enabled with a ring of context 1 at 0x10000 waiting on object 63, and woken. -/
def ringed (woken : Bool) (a : Nat) : State :=
  let s := (((vm.setReg (.upe 0 0) 0 1).setReg (.upe 0 0) 0x408 (2 ^ 31 + 4 * 4096 + 63)).setReg (.upe 0 0) 0x400 a).setReg (.upe 0 0) 0x404 0
  { s with sync := { s.sync with waits := [⟨.upe 0 0, 63, woken, 63⟩] } }
theorem test_meets_UpeTake : (ringed true 0x10000).upeRuns 0 0 = true ∧ ((ringed true 0x10000).reg (upeFrame 0) 0).testBit 0 = true ∧ ((ringed true 0x10000).reg (upeFrame 0) 0x408).testBit 31 = true ∧ (ringed true 0x10000).upeAt 0 0 = none
    ∧ (ringed true 0x10000).objOf (some 0) ((ringed true 0x10000).reg (upeFrame 0) 0x408 % 4096) = some 63 ∧ (ringed true 0x10000).waitOf (.upe 0 0) = some ⟨.upe 0 0, 63, true, 63⟩ ∧ (ringed true 0x10000).stackRange 0 0 0x10000 128 = true
    ∧ (({ ringed true 0x10000 with cat := { vm.cat with granules := [(0, ⟨3, true, 0⟩)] } } : State).stackRange 0 0 0x10000 128 = false)
    ∧ ((vm.syncAct 63 2 1 0 0 0).obj 63).counter < ((vm.syncAct 63 2 1 0 0 0).obj 63).target ∧ (vm.syncAct 63 2 1 0 0 0).waitOf (.upe 0 0) = none := by decide +kernel
/-- A layer descriptor whose STATUS says it has run, with or without ASYNC. -/
def stale (async : Bool) : List Byte := (u32 (if async then 2 ^ 15 else 0)) ++ List.replicate 116 0 ++ u64 1
theorem test_meets_Stale : fieldAt ((({ vm with mem := memPut vm.mem 0x10000 (stale false) } : State).upeRead 0 0 0x10000 128).bytes) 0x78 8 ≠ 0
    ∧ layerAsync ((({ vm with mem := memPut vm.mem 0x10000 (stale false) } : State).upeRead 0 0 0x10000 128).bytes) = none
    ∧ (layerAsync ((({ vm with mem := memPut vm.mem 0x10000 (stale true) } : State).upeRead 0 0 0x10000 128).bytes)).isSome = true := by decide +kernel
/-- A descriptor of two chunks whose program updates nothing. -/
def upe1 (phase : Nat) : UpeRun := { addr := 0x10000, num := 0, words := (List.replicate 8 0) ++ u64 20000 ++ List.replicate 112 0, phase := phase }
/-- It running on engine 0 for context 0. -/
def running (phase : Nat) : State := vm.setUpe 0 0 (upe1 phase)
theorem test_meets_UpeChunk : (running 3).upeRuns 0 0 = true ∧ (running 3).upeAt 0 0 = some (upe1 3) ∧ (upe1 3).chunk + 1 < layerChunks (upe1 3).words ∧ ((running 3).readTensors 0 0 (upe1 3) []).map (·.2.2) = some false
    ∧ (running 3).rangeLent 0 (upe1 3).journal 256 = true ∧ (running 3).rangeLent 0 0 0 = true ∧ (running 3).readTensors 0 0 (upe1 3) [] = some (running 3, [], false)
    ∧ ({ running 3 with cat := { vm.cat with granules := [(0, ⟨3, true, 0⟩)] } } : State).readTensors 0 0 (upe1 3) [0] = none ∧ layerAsync (upe1 6).words = none := by decide +kernel
/-- Two contexts with half of engine 0 each, context 0 having used its eight turns of the round (R413). -/
def shared : State := { running 3 with upes := [((0, 0), upe1 3), ((0, 1), upe1 3)], turns := [(0, { served := List.replicate 8 0, shares := [8, 8] })] }
theorem test_meets_UpeTurn : (running 3).turnOpen 0 0 = true ∧ (running 4).turnOpen 0 0 = true ∧ shared.upeRuns 0 0 = true ∧ (upe1 3).hasWork = true ∧ shared.turnOpen 0 0 = false ∧ shared.turnOpen 0 1 = true := by decide +kernel
theorem test_round_ends : ((Nat.repeat (fun s => s.takeTurn 0 1) 7 shared).turnsOf 0).served.length = 15 ∧ ((Nat.repeat (fun s => s.takeTurn 0 1) 8 shared).turnsOf 0).served = [] := by decide +kernel
theorem test_meets_LayerComplete : (running 6).upeUp 0 = true ∧ (running 6).upeAt 0 0 = some (upe1 6) ∧ (upe1 6).phase = 6 ∧ layerAsync (upe1 6).words = none ∧ (layerAsync (stale true)).isSome = true := by decide +kernel
/-- A descriptor of two chunks whose program loads MASTER and stores nothing, before its second chunk. -/
def upe2 (phase : Nat) : UpeRun := { upe1 phase with program := [1], chunk := 1 }
def running2 (phase : Nat) : State := vm.setUpe 0 0 (upe2 phase)
theorem test_meets_UpeLoads : (List.range 6).filter (fun x => (loadedTensors ((upe2 3).prog.filter (fun x => !uReduces x))).contains x || (storedTensors (upe2 3).prog).contains x) = [0]
    ∧ (({ running2 3 with cat := { vm.cat with granules := [(0, ⟨3, true, 0⟩)] } } : State).readTensors 0 0 (upe2 3) [0]).isNone = true ∧ (running2 3).gatedNow 0 16 = false ∧ (upe2 3).results = none
    ∧ ({ running2 3 with pwr := { vm.pwr with gates := [((0, 16), 12)] } } : State).gatedNow 0 16 = true ∧ (upe2 3).hasWork = true ∧ storedTensors (upe2 3).prog = [] ∧ (running2 3).turnOpen 0 0 = true := by decide +kernel
theorem test_meets_UpePoison : ∃ x vals, ({ running2 3 with memPoison := [512] } : State).readTensors 0 0 (upe2 3) [0] = some (x, vals, true) := by
  have c : (({ running2 3 with memPoison := [512] } : State).upeRead 0 0 ((upe2 3).chunkRange 0).1 ((upe2 3).chunkRange 0).2).poison = true := by decide +kernel
  have l : ({ running2 3 with memPoison := [512] } : State).rangeLent 0 ((upe2 3).chunkRange 0).1 ((upe2 3).chunkRange 0).2 = true := by decide +kernel
  unfold State.readTensors
  simp only [l, State.readTensors, c, Bool.not_true, Bool.false_eq_true, if_false, Bool.or_false]
  exact ⟨_, _, rfl⟩
/-- A chunk whose results stand to be written, its journal's granule lent or not. -/
def resulting (lent : Bool) (chunk : Nat) : State :=
  let s := vm.setUpe 0 0 { upe1 3 with chunk := chunk, results := some [(0, [1])] }
  if lent then s else { s with cat := { s.cat with granules := [(0, ⟨3, true, 0⟩)] } }
theorem test_meets_UpeResultsDue : (resulting true 0).upeUp 0 = true ∧ ((resulting true 0).upeAt 0 0).map (·.results) = some (some [(0, [1])]) ∧ (resulting true 0).gatedNow 0 16 = false ∧ (resulting true 0).rangeLent 0 (upe1 3).journal 256 = true
    ∧ (resulting true 0).rangeLent 0 ((upe1 3).chunkRange 0).1 ((upe1 3).chunkRange 0).2 = true ∧ (resulting false 0).rangeLent 0 (upe1 3).journal 256 = false ∧ 0 + 1 < layerChunks (upe1 3).words ∧ layerChunks (upe1 3).words ≤ 1 + 1 := by decide +kernel
theorem test_meets_UpePass3 : ∃ x vals, (running 4).readTensors 0 0 (upe1 4) [0] = some (x, vals, false) := by
  have c : ((running 4).upeRead 0 0 ((upe1 4).chunkRange 0).1 ((upe1 4).chunkRange 0).2).poison = false :=
    ((running 4).readPhys_clean _ _ _ _ rfl (by intro d; rfl) (by intro a; rfl)).1
  have l : (running 4).rangeLent 0 ((upe1 4).chunkRange 0).1 ((upe1 4).chunkRange 0).2 = true := by decide +kernel
  unfold State.readTensors
  simp only [l, State.readTensors, c, Bool.not_true, Bool.false_eq_true, if_false, Bool.or_false]
  exact ⟨_, _, rfl⟩
theorem test_meets_UpePass3_room : (upe1 4).phase = 4 ∧ (upe1 4).chunk + 1 < layerChunks (upe1 4).words ∧ (running 4).rangeLent 0 0 32768 = true ∧ (running 4).rangeLent 0 0 1 = true := by decide +kernel
/-- A checkpoint message sent at 0 and not answered. -/
def unanswered : State := at_ (vm.setUpe 0 0 { upe1 5 with outst := [⟨1, some 0, 0, 4⟩] }) 10000000
theorem test_meets_CkptTimeout : (unanswered.advance 10000000).upeUp 0 = true ∧ (((unanswered.advance 10000000).upeAt 0 0).map (fun r => (r.phase, r.outst.map (·.sent)))) = some (5, [some 0]) ∧ 0 + 10000000 ≤ (unanswered.advance 10000000).pm.ran := by decide +kernel
/-- Stages: a ring of the collective engine of region 0 for context 0, woken; a stage of 4 bytes to module 5 with an RSYNC, in a phase. -/
def ceRing (a : Nat) : State :=
  let s := (((vm.setReg (.ce 0) 0 1).setReg (.ce 0) 0x408 (2 ^ 31 + 4 * 4096 + 63)).setReg (.ce 0) 0x400 a).setReg (.ce 0) 0x404 0
  { s with sync := { s.sync with waits := [⟨.ce 0 0, 63, true, 63⟩] } }
def stageWords : List Byte := u32 (2 ^ 7 + 2 ^ 10) ++ u32 0 ++ u32 9 ++ u32 5 ++ u64 0x1000 ++ u64 0x2000 ++ u64 4 ++ u64 500 ++ List.replicate 16 0
def stage1 (phase : Nat) : Stage := { addr := 0x10000, num := 0, words := stageWords, phase := phase, dstId := 5 }
/-- Port 3 up with a route to module 5, the stage in its ring, the master at `t`. -/
def staged (phase : Nat) (t : W64) : State :=
  let s := (at_ vm t).setStages 0 0 [stage1 phase]
  { s with links := { s.links with selfId := some 7, routes := [((3, 5), 0x8008)], ports := [(3, { state := 2, lanes := 255 })] } }
theorem test_meets_StageTake : (ceRing 0x10000).ceRuns 0 0 = true ∧ ((ceRing 0x10000).reg (.ce 0) 0).testBit 0 = true ∧ ((ceRing 0x10000).reg (.ce 0) 0x408).testBit 31 = true ∧ (∀ g, g ∈ (ceRing 0x10000).stagesOf 0 0 → 2 ≤ g.phase)
    ∧ (ceRing 0x10000).waitOf (.ce 0 0) = some ⟨.ce 0 0, 63, true, 63⟩ ∧ (ceRing 0x10000).rangeLent 0 0x10000 64 = true ∧ (ceRing 0x10000).rangeLent 0 0x2000000000000 64 = false := by decide +kernel
/-- A stage descriptor at 0x10000 whose STATUS says it has run. -/
def staleStage : State := { vm with mem := memPut vm.mem 0x10000 (stageWords.take 0x38 ++ u64 1) }
theorem test_meets_StageStale : fieldAt ((staleStage.readPhys (.ce 0) 0 0x10000 64).bytes) 0x38 8 ≠ 0 := by decide +kernel
theorem test_meets_StageComplete : ((List.range ((staged 2 0).stagesOf 0 0).length).zip ((staged 2 0).stagesOf 0 0)).find? (fun x => x.2.settled) = some (0, stage1 2) ∧ stageRsync (stage1 2).words = some 9 ∧ (stage1 2).code = 0
    ∧ ((staged 2 0).candidates (stage1 2).dstId).isEmpty = false ∧ ((List.range ((staged 4 0).stagesOf 0 0).length).zip ((staged 4 0).stagesOf 0 0)).find? (fun x => x.2.settled) = some (0, stage1 4) ∧ (stage1 4).phase ≠ 2 := by decide +kernel
theorem test_meets_StageLaunch : ((staged 1 499).advance 499).ceRuns 0 0 = true ∧ ((staged 1 499).advance 499).newestStage 0 0 = some (0, stage1 1) ∧ stageTimed (stage1 1).words = true ∧ (((staged 1 499).advance 499).copyOf 0).toNat < stageTime (stage1 1).words
    ∧ stageTime (stage1 1).words ≤ (((staged 1 500).advance 500).copyOf 0).toNat ∧ (((staged 1 500).advance 500).candidates 5).isEmpty = false ∧ ((staged 1 500).advance 500).rangeLent 0 (stageLocal (stage1 1).words) (stageLen (stage1 1).words) = true := by decide +kernel
theorem test_meets_StageTimeout : ((((at_ vm 10000000).setStages 0 0 [{ stage1 2 with outst := [⟨1, some 0, 0, 4⟩] }]).advance 0).stagesOf 0 0).any
    (fun g => g.outst.any (fun o => o.unanswered 10000000 (((at_ vm 10000000).setStages 0 0 [{ stage1 2 with outst := [⟨1, some 0, 0, 4⟩] }]).advance 0).pm.ran)) = true
    ∧ (((at_ vm 10000000).setStages 0 0 [{ stage1 2 with outst := [⟨1, some 0, 0, 4⟩] }]).advance 0).ceUp 0 = true ∧ (staged 2 0).ceUp 0 = true := by decide +kernel
/-- Core 0 waits on object 63 and its wake is on the way. -/
def waking : State :=
  let s := (vm.withInts 0 [63]).modCore 0 (fun c => { c with waiting := some { kind := .sync 63, since := 0, policy := 0, instr := .wait k0 } })
  { s with sync := { s.sync with waits := [⟨.core 0, 63, true, 0⟩] } }
theorem test_meets_Wake : waking.waitOf (.core 0) = some ⟨.core 0, 63, true, 0⟩ ∧ waking.portHolds 0 63 = false ∧ waking.issuesNow k0 ∧ waking.onCore 0 1 0 0 0 ∧ waking.objOf (waking.coreCtx 0) 63 = some 63 ∧ waking.fenceWrites 0 = []
    ∧ ({ waking with sync := { waking.sync with waits := [⟨.core 0, 63, false, 0⟩] } } : State).waitOf (.core 0) = some ⟨.core 0, 63, false, 0⟩ := by unfold State.issuesNow State.onCore; decide +kernel
/-- Port 3 in a state. -/
def port3 (x : Port) : State := { vm with links := { vm.links with selfId := some 7, ports := [(3, x)] } }
/-- A flit of zeros with its CRC. -/
def goodFlit : RowBits := BitVec.ofNat 2048 (2 ^ 2016 * 0x67e65321)
theorem test_meets_FlitReceive : ((port3 { state := 2, lanes := 255 }).advance 0).portSends 3 = true ∧ crc32c ((leBytes 256 (0 : RowBits).toNat).take 252) ≠ fieldAt (leBytes 256 (0 : RowBits).toNat) 252 4
    ∧ ((((port3 { state := 2, discarding := true }).advance 0).decoded 3 []).lport 3).discarding = true ∧ ((((port3 { state := 2 }).advance 0).decoded 3 []).lport 3).discarding = false
    ∧ ((((port3 { state := 2 }).advance 0).decoded 3 []).lport 3).rxSeq = 0 ∧ 2048 < (0 + 4096 - (1 : BitVec 12).toNat) % 4096 ∧ (0 + 4096 - (4095 : BitVec 12).toNat) % 4096 = 1 := by decide +kernel
theorem zeros_crc_0 : (List.replicate 42 (0 : Byte)).foldl (crcByte 0x82F63B78) 0xffffffff = 0x936c303f := by decide +kernel
theorem zeros_crc_1 : (List.replicate 42 (0 : Byte)).foldl (crcByte 0x82F63B78) 0x936c303f = 0xc286c65 := by decide +kernel
theorem zeros_crc_2 : (List.replicate 42 (0 : Byte)).foldl (crcByte 0x82F63B78) 0xc286c65 = 0xb09b3 := by decide +kernel
theorem zeros_crc_3 : (List.replicate 42 (0 : Byte)).foldl (crcByte 0x82F63B78) 0xb09b3 = 0xa4fd1cef := by decide +kernel
theorem zeros_crc_4 : (List.replicate 42 (0 : Byte)).foldl (crcByte 0x82F63B78) 0xa4fd1cef = 0xfc18450b := by decide +kernel
theorem zeros_crc_5 : (List.replicate 42 (0 : Byte)).foldl (crcByte 0x82F63B78) 0xfc18450b = 0x9819acde := by decide +kernel
theorem test_meets_GoodFlit : crc32c ((leBytes 256 goodFlit.toNat).take 252) = fieldAt (leBytes 256 goodFlit.toNat) 252 4 := by
  have e : (leBytes 256 goodFlit.toNat).take 252 = List.replicate 42 0 ++ (List.replicate 42 0 ++ (List.replicate 42 0 ++ (List.replicate 42 0 ++ (List.replicate 42 0 ++ List.replicate 42 0)))) := by decide +kernel
  have f : fieldAt (leBytes 256 goodFlit.toNat) 252 4 = 0x67e65321 := by decide +kernel
  rw [e, f]
  simp only [crc32c, crcOf, List.foldl_append, zeros_crc_0, zeros_crc_1, zeros_crc_2, zeros_crc_3, zeros_crc_4, zeros_crc_5]
  decide
/-- A flit kept for replay. -/
def kept : SentFlit := { seq := 9, body := List.replicate 252 0 }
theorem test_meets_FlitSend : ((port3 { state := 2, replay := [kept], replayFrom := some 9 }).advance 0).portSends 3 = true ∧ (((port3 { state := 2, replay := [kept], replayFrom := some 9 }).advance 0).lport 3).replay.find? (fun f => f.seq == 9) = some kept
    ∧ (((port3 { state := 2 }).advance 0).lport 3).replayFrom = none ∧ (((port3 { state := 2, replay := List.replicate 511 kept }).advance 0).lport 3).replay.length < 512 ∧ (((port3 { state := 2 }).advance 0).lport 3).closing = false
    ∧ ¬(((port3 { state := 2, replay := List.replicate 512 kept }).advance 0).lport 3).replay.length < 512 ∧ ((port3 { state := 2, replay := List.replicate 512 kept }).advance 0).lctlNow 3 = false
    ∧ ((port3 { state := 2, replay := List.replicate 512 kept, nakDue := true }).advance 0).lctlNow 3 = true := by decide +kernel
/-- A flit kept for replay that has room for an LCTL, the replay beginning, a NAK due after so many. -/
def replaying (naks : Nat) : State := (port3 { state := 2, replay := [{ kept with hole := some 0 }], replayFrom := some 9, nakDue := true, naks := naks }).advance 0
theorem test_meets_Replay : (replaying 6).portSends 3 = true ∧ ((replaying 6).lport 3).replayFrom = some 9 ∧ ((replaying 6).lport 3).replay.find? (fun f => f.seq == 9) = some { kept with hole := some 0 } ∧ ({ kept with hole := some 0 } : SentFlit).hole.isSome = true ∧ ((replaying 6).lport 3).nakDue = true
    ∧ ((replaying 6).lport 3).naks < 7 ∧ ((replaying 6).lport 3).naksGot < 8 ∧ ((replaying 7).lport 3).naks = 7 ∧ (replaying 7).links.selfId.isSome = true := by decide +kernel
theorem test_meets_FlitSend2 : (((port3 { state := 2, sinceHole := 40 }).advance 0).lport 3).part = [] ∧ (((port3 { state := 2, sinceHole := 40 }).advance 0).lport 3).tx = [] ∧ 40 ≤ (((port3 { state := 2, sinceHole := 40 }).advance 0).lport 3).sinceHole
    ∧ (((port3 { state := 2, nakDue := true, naks := 7 }).advance 0).lport 3).nakDue = true ∧ (((port3 { state := 2, nakDue := true, naks := 7 }).advance 0).lport 3).naks = 7 ∧ ((port3 { state := 2, nakDue := true, naks := 7 }).advance 0).lctlNow 3 = true
    ∧ (((port3 { state := 2, replay := List.replicate 512 kept, nakDue := true }).advance 0).lport 3).replay.length < 4095 := by decide +kernel
theorem test_meets_Training : (((at_ (port3 { state := 1 }) 50000000).advance 0).lport 3).trainStart + 50000000 ≤ ((at_ (port3 { state := 1 }) 50000000).advance 0).pm.ran ∧ ((at_ (port3 { state := 1, retraining := true }) 50000000).lport 3).retraining = true
    ∧ ((at_ ((port3 {}).setReg (.port 3) 0 1) 100000000).advance 0).portRuns 3 = true ∧ (((at_ ((port3 {}).setReg (.port 3) 0 1) 100000000).advance 0).reg (.port 3) 0).testBit 0 = true
    ∧ (((at_ ((port3 {}).setReg (.port 3) 0 1) 100000000).advance 0).lport 3).lastTry + 100000000 ≤ ((at_ ((port3 {}).setReg (.port 3) 0 1) 100000000).advance 0).pm.ran
    ∧ ((port3 { state := 2 }).advance 0).target .mgmt (((port3 { state := 2 }).advance 0).bar0 (.lane 3 7)) true = .frame (.lane 3 7) 0 0 ∧ ((port3 { state := 2 }).advance 0).links.selfId.isSome = true := by decide +kernel
/-- An LCTL that acknowledges sequence 8, with NAK or not. -/
def lctl (nak : Bool) : List Byte := (Msg.mk 10 0 false 0 0 0 0 0 0 (8 + (if nak then 2 ^ 15 else 0)) 0x00100010 0x00100010 []).bytes
theorem test_meets_Lctl : (port3 { state := 2, replay := [kept], rx := [lctl false] }).portRuns 3 = true ∧ ((port3 { state := 2, replay := [kept], rx := [lctl false] }).nextRx 3 10).isSome = true ∧ (parseMsg (lctl false)).addr.testBit 15 = false ∧ (parseMsg (lctl true)).addr.testBit 15 = true
    ∧ (afterAck ((parseMsg (lctl true)).addr % 4096) [kept]).any (fun f => f.seq == ((parseMsg (lctl true)).addr % 4096 + 1) % 4096) = true := by decide +kernel
/-- An LCTL that acknowledges nothing kept comes with NAK after so many. -/
def nakked (n : Nat) : State := port3 { state := 2, replay := [kept], rx := [lctl true], naksGot := n }
theorem test_meets_LctlNaks : (nakked 6).portRuns 3 = true ∧ ((nakked 6).nextRx 3 10) = some (lctl true, []) ∧ ((nakked 6).lport 3).naksGot + 1 < 8 ∧ 8 ≤ ((nakked 7).lport 3).naksGot + 1 ∧ (afterAck ((parseMsg (lctl true)).addr % 4096) [kept]).length = [kept].length
    ∧ ((nakked 7).lport 3).naks < 8 ∧ ((nakked 7).lport 3).state ≠ 0 ∧ (nakked 7).links.selfId.isSome = true := by decide +kernel
/-- Port 3 with 17 codewords of lane 7 lost in the last millisecond. -/
def lossy (x : Port) : State := { port3 x with links := { (port3 x).links with fec := [((3, 7), List.replicate 17 ⟨0, 0, true⟩)] } }
theorem test_meets_Lanes2 : (lossy { state := 2, lanes := 255 }).laneFails 3 7 .uncorrectable = true ∧ (port3 { state := 2 }).laneFails 3 7 .uncorrectable = false ∧ (lossy { state := 2, lanes := 255 }).portRuns 3 = true
    ∧ ((lossy { state := 2, lanes := 255 }).lport 3).lanes.testBit 7 = true ∧ (255 &&& (255 ^^^ 2 ^ (7 : Nat)) : Nat) ≠ 0 ∧ (128 &&& (255 ^^^ 2 ^ (7 : Nat)) : Nat) = 0 ∧ ((lossy { state := 1 }).lport 3).allow.testBit 7 = true
    ∧ laneUp ((port3 { state := 1 }).lport 3) 1 [] 0 = true ∧ (∀ n, n < 8 → laneUp ((port3 { state := 1 }).lport 3) 0 [] n = false) ∧ ((port3 { state := 1, retraining := true }).lport 3).retraining = true
    ∧ (port3 {}).target .mgmt ((port3 {}).bar0 (.port 3)) true = .frame (.port 3) 0 0 ∧ ((port3 {}).reg (.port 3) 0).testBit 0 = false ∧ (port3 {}).links.selfId.isSome = true ∧ (((port3 {}).setReg (.port 3) 0 1).reg (.port 3) 0).testBit 0 = true
    ∧ (port3 {}).target .mgmt ((port3 {}).bar0 (.lane 3 7) + 0x20) true = .frame (.lane 3 7) 0x20 0
    ∧ tget ({ (port3 {}) with links := { (port3 {}).links with margins := [((3, 7), true)] } } : State).links.margins (3, 7) false = true := by decide +kernel
/-- Port 3 up, this module 7 of rank 5 with job 9 for context 0, one message received. -/
def got (m : Msg) : State :=
  let s := port3 { state := 2, lanes := 255, rx := [m.bytes] }
  { s with links := { s.links with rank := 5, jobs := [(0, 9)] } }
/-- Messages to this module of a type, and one of a foreign job. -/
def toUs (typ addr : Nat) : Msg := { typ := typ, dstId := 7, srcId := 2, dstRank := 5, srcRank := 6, job := 9, addr := addr, len := 4, txn := 1, data := if typ = 0 ∨ typ = 1 ∨ typ = 3 then [1, 2, 3, 4] else [] }
theorem test_meets_Messages : (got (toUs 0 0x2000)).portRuns 3 = true ∧ (got (toUs 0 0x2000)).nextRx 3 0 = some ((toUs 0 0x2000).bytes, []) ∧ (got (toUs 0 0x2000)).links.selfId = some (parseMsg (toUs 0 0x2000).bytes).dstId
    ∧ ((got (toUs 0 0x2000)).consume 3 (toUs 0 0x2000).bytes []).acceptMsg (parseMsg (toUs 0 0x2000).bytes) 4 = .inr 0 ∧ (got (toUs 2 0x2000)).nextRx 3 2 = some ((toUs 2 0x2000).bytes, []) ∧ (got (toUs 1 0x2000)).nextRx 3 1 = some ((toUs 1 0x2000).bytes, [])
    ∧ ((got (toUs 0 0x2000)).consume 3 (toUs 0 0x2000).bytes []).acceptMsg { toUs 0 0x2000 with job := 8 } 4 = .inl 2 ∧ (got { toUs 0 0 with dstId := 8 }).links.selfId ≠ some (parseMsg { toUs 0 0 with dstId := 8 }.bytes).dstId
    ∧ (parseMsg (toUs 1 0x2000).bytes).opt < 3 ∧ (((got (toUs 1 0x2000)).setReg (.ce 0) 0 1).consume 3 (toUs 1 0x2000).bytes []).acceptMsg (parseMsg (toUs 1 0x2000).bytes) 4 = .inr 0 := by decide +kernel
/-- The same with identifiers 0 to 63 of context 0 unbound. -/
def unnamed (m : Msg) : State := { got m with cat := { (got m).cat with ranges := [((0, 0), none)] } }
theorem test_meets_Arrivals : (got (toUs 6 63)).nextRx 3 6 = some ((toUs 6 63).bytes, []) ∧ ((got (toUs 6 63)).consume 3 (toUs 6 63).bytes []).acceptMsg (parseMsg (toUs 6 63).bytes) 1 = .inr 0
    ∧ ((unnamed (toUs 6 63)).consume 3 (toUs 6 63).bytes []).acceptMsg (parseMsg (toUs 6 63).bytes) 1 = .inl 4
    ∧ ((got { toUs 6 63 with dstRank := 4 }).consume 3 { toUs 6 63 with dstRank := 4 }.bytes []).acceptMsg (parseMsg { toUs 6 63 with dstRank := 4 }.bytes) 1 = .inl 1 := by decide +kernel
/-- An EVENT message with a Registered record of another module. -/
def evMsg : Msg := { typ := 7, dstId := 7, srcId := 2, dstRank := 5, srcRank := 6, job := 9, len := 64, data := u8 0 ++ List.replicate 63 1 }
theorem test_meets_EventMessage : (got evMsg).nextRx 3 7 = some (evMsg.bytes, []) ∧ ((got evMsg).consume 3 evMsg.bytes []).eventRefused (parseMsg evMsg.bytes) = none ∧ accepts (classOf (remoteRecord (parseMsg evMsg.bytes)).code) (tget (got evMsg).ev.root 9 []).length = true
    ∧ ((got { evMsg with dstRank := 4 }).consume 3 { evMsg with dstRank := 4 }.bytes []).eventRefused (parseMsg { evMsg with dstRank := 4 }.bytes) = some 1 := by decide +kernel
/-- REFUSE of a forwarded record. -/
def lostEvent : Msg := { toUs 5 0 with txn := eventTxn }
theorem test_meets_EventRefuse : (got lostEvent).nextRx 3 5 = some (lostEvent.bytes, []) ∧ (parseMsg lostEvent.bytes).txn = eventTxn ∧ (got lostEvent).links.selfId = some (parseMsg lostEvent.bytes).dstId ∧ (parseMsg { evMsg with job := 0xFFFF }.bytes).job = 0xFFFF := by decide +kernel
/-- A stage that waits for tag 1, and the answers. -/
def asking (m : Msg) : State := (got m).setStages 0 0 [{ stage1 2 with outst := [⟨1, some 0, 0x1000, 4⟩] }]
theorem test_meets_Answers : ((asking (toUs 4 0)).consume 3 (toUs 4 0).bytes []).stageWaiting (parseMsg (toUs 4 0).bytes).txn ≠ none ∧ (asking (toUs 4 0)).nextRx 3 4 = some ((toUs 4 0).bytes, []) ∧ (parseMsg (toUs 4 0).bytes).typ = 4
    ∧ ((asking (toUs 4 0)).consume 3 (toUs 4 0).bytes []).acceptHead (parseMsg (toUs 4 0).bytes) = .inr 0 ∧ ((asking (toUs 4 0)).consume 3 (toUs 4 0).bytes []).acceptHead { toUs 4 0 with dstRank := 4 } = .inl 1
    ∧ (asking (toUs 5 0)).nextRx 3 5 = some ((toUs 5 0).bytes, []) ∧ (asking (toUs 3 0)).nextRx 3 3 = some ((toUs 3 0).bytes, []) ∧ (asking (toUs 3 0)).rangeLent 0 0x1000 4 = true
    ∧ ((got (toUs 4 0)).consume 3 (toUs 4 0).bytes []).stageWaiting 1 = none ∧ ((got (toUs 4 0)).consume 3 (toUs 4 0).bytes []).upeWaiting 1 = none ∧ (((got (toUs 4 0)).consume 3 (toUs 4 0).bytes []).scanAnswer (parseMsg (toUs 4 0).bytes)).isNone = true ∧ (1 : Nat) ≠ eventTxn
    ∧ vm.target .mgmt (vm.bar0 (.ce 7) + 0x800 + 4 * 63) true = .frame (.ce 7) (0x800 + 4 * 63) 0 := by decide +kernel
/-- Port 3 the source of time, the exchange of R454 under way at t4. -/
def aligning (stepped : Bool) : State :=
  let s := at_ (port3 { state := 2, lanes := 255, rx := [(Msg.mk 9 0 false 0 7 2 0 0 0 5000000310 (5000000410 % 2 ^ 32) 0 []).bytes] }) 5000000800
  { s with pm := { s.pm with source := some 3, exchange := some 5000000000, stepped := stepped, locked := true, lastAlign := 5000000700 } }
theorem test_meets_Alignment : ((aligning true).advance 5000000800).portRuns 3 = true ∧ (((aligning true).advance 5000000800).nextRx 3 9).isSome = true ∧ ((aligning true).advance 5000000800).pm.exchange = some 5000000000 ∧ ((aligning true).advance 5000000800).pm.source = some 3
    ∧ ((aligning true).advance 5000000800).pm.stepped = true ∧ ((aligning false).advance 5000000800).pm.stepped = false ∧ ((aligning true).advance 5000000800).portSends 3 = true
    ∧ ((aligning true).advance 5000000800).pm.lastReq.toNat + 10000 ≤ ((aligning true).advance 5000000800).pm.master.toNat ∧ ((port3 { state := 2, rx := [(Msg.mk 8 0 false 0 7 2 0 0 0 0 0 0 []).bytes] }).nextRx 3 8).isSome = true
    ∧ ((aligning true).advance 5000000800).pm.master.toNat < ((aligning true).advance 5000000800).pm.lastAlign.toNat + 100000000 ∧ (match exec (.pmRsp 3 5000000800) (aligning true) with | .next t => t.pm.offset | _ => 0) = (40 : Int) := by decide +kernel
theorem test_meets_Unlock : (at_ { vm with pm := { vm.pm with locked := true } } 100000000).pwr.ready = true ∧ ((at_ { vm with pm := { vm.pm with locked := true } } 100000000).advance 0).pm.locked = true
    ∧ ((at_ { vm with pm := { vm.pm with locked := true } } 100000000).advance 0).pm.lastAlign.toNat + 100000000 ≤ ((at_ { vm with pm := { vm.pm with locked := true } } 100000000).advance 0).pm.master.toNat := by decide +kernel

/-! ## Host port and dockets -/

/-- BAR2 of the physical function at 0. -/
theorem test_meets_Bar2 : vm.inBar2 0 0xFFFFFFFFF 4 = false ∧ vm.inBar2 0 0x1040 64 = true ∧ vm.bar2Reach 0 0x1040 64 = true ∧ ({ vm with cat := { vm.cat with granules := [(0, ⟨3, true, 0⟩)] } } : State).bar2Reach 1 0x1040 64 = false
    ∧ ({ vm with cat := { vm.cat with granules := [(0, ⟨3, true, 0⟩)] }, host := { vm.host with vfs := 1 } } : State).inBar2 1 0x1040 64 = true
    ∧ 0x1040 % 128 + 64 ≤ 128 ∧ (vm.region (regionOfPa 0x1040)).fenced = false := by decide +kernel
/-- BAR2 of a virtual function, its granule another context's. -/
def foreign : State := { vm with cat := { vm.cat with granules := [(0, ⟨3, true, 0⟩)] }, host := { vm.host with vfs := 1 } }
theorem test_meets_Bar2b : foreign.inBar2 1 0x1040 64 = true ∧ foreign.bar2Reach 1 0x1040 64 = false ∧ 1 ≤ foreign.host.vfs ∧ vm.stackHeld 0x1040 = false ∧ (64 : Nat) ≤ 512 ∧ vm.inBar2 0 0xFFFFFFFFF 4 = false ∧ 0 ≤ vm.host.vfs := by decide +kernel
/-- Context 0 watches object 63 in watch 15 for the level 0 or 1; object 63 bound or not. -/
def watching (n : Nat) : State := (at_ vm 0).setReg (.func 0) (0x100 + 8 * 15) (2 ^ 31 + 63) |>.setReg (.func 0) (0x104 + 8 * 15) n
theorem test_meets_Functions : (0 : Fin 64).val ≤ vm.host.vfs ∧ vm.host.vfs = 0 ∧ ({ vm with host := { vm.host with vfs := 4 } } : State).host.vfs ≠ 0 ∧ [1, 2, 4, 8, 16, 32, 64].contains 64 = true ∧ [1, 2, 4, 8, 16, 32, 64].contains 3 = false
    ∧ ((watching 0).advance 0).pwr.ready = true ∧ (((watching 0).advance 0).reg (.func 0) (0x100 + 8 * 15)).testBit 31 = true
    ∧ ((watching 0).advance 0).objOf (some 0) (tget ((watching 0).advance 0).host.watchIds (0, 15) (((watching 0).advance 0).reg (.func 0) (0x100 + 8 * 15) % 4096)) = some 63
    ∧ ((watching 0).advance 0).reg (.func 0) (0x104 + 8 * 15) % 2 ^ 31 ≤ (((watching 0).advance 0).obj 63).counter ∧ (((watching 1).advance 0).obj 63).counter < ((watching 1).advance 0).reg (.func 0) (0x104 + 8 * 15) % 2 ^ 31
    ∧ (tget ((watching 0).advance 0).host.fns 0 {}).busMaster = true ∧ (((tget ((watching 0).advance 0).host.fns 0 {}).msix.getD 17 {}).masked) = false ∧ ({ busMaster := false } : HostFn).busMaster = false
    ∧ ({ watching 0 with cat := { vm.cat with ranges := [((0, 0), none)] } } : State).objOf (some 0) 63 = none := by decide +kernel
theorem test_meets_Letterbox : vm.target (.host 0) 0x4000 true = .frame (.lb 0) 0 0 ∧ vm.docketBusy (.lb 0) = false ∧ vm.replyReady (.lb 0) = false ∧ vm.target (.host 0) 0x4008 true = .frame (.lb 0) 8 0
    ∧ ({ vm with host := { vm.host with dockets := [⟨.lb 0, [], false⟩] } } : State).docketBusy (.lb 0) = true ∧ vm.docketBusy .smb = false ∧ vm.host.smbAsm.length ≤ 1024
    ∧ ({ vm with host := { vm.host with replies := [(.smb, [1])] } } : State).replyReady .smb = true := by decide +kernel
/-- The docket with a byte of its CRC wrong. -/
def torn (b : List Byte) : List Byte := b.take (b.length - 4) ++ [1, 2, 3, 4]
theorem test_meets_Refused : (sent State.reset (torn (docket 0x0100 0 [3, 0, 0, 0, 0x100]))).mayRun .smb = true ∧ ((sent State.reset (torn (docket 0x0100 0 [3, 0, 0, 0, 0x100]))).docketCheck .smb (torn (docket 0x0100 0 [3, 0, 0, 0, 0x100]))).isSome = true
    ∧ dOpcode (torn (docket 0x0100 0 [3, 0, 0, 0, 0x100])) = 0x0100 ∧ ((sent vm (u16 0xFFFF ++ u16 20 ++ List.replicate 16 0)).docketCheck .smb (u16 0xFFFF ++ u16 20 ++ List.replicate 16 0)).isSome = true ∧ docketRow 0xFFFF = none := by decide +kernel
/-- A context with a core may not lose a granule's name while it holds one: context 3 holds no core. -/
def lent3 : State := { State.reset with cat := { State.reset.cat with granules := [(5, ⟨3, true, 0⟩)] } }
theorem test_meets_Catalogue : runs State.reset 0x0100 (docket 0x0100 0 [3, 0, 0, 0, 0x100]) = true ∧ ((sent State.reset (docket 0x0100 0 [3, 0, 0, 0, 0x100])).core 3).loan = none
    ∧ (match (sent State.reset (docket 0x0100 0 [3, 0, 0, 0, 0x100])).loanCheck .smb (docket 0x0100 0 [3, 0, 0, 0, 0x100]) with | .inr l => l.wasFree && l.restore == 0 && l.newCtx == some 0 | .inl _ => false) = true
    ∧ (match (sent vm (docket 0x0100 0 [0, 0, 0, 0, 0x100])).loanCheck .smb (docket 0x0100 0 [0, 0, 0, 0, 0x100]) with | .inr l => !l.wasFree | .inl _ => false) = true
    ∧ (match (sent vm (docket 0x0100 0 [128, 0, 0, 0, 0])).loanCheck .smb (docket 0x0100 0 [128, 0, 0, 0, 0]) with | .inr _ => 0 | .inl n => n) = 0x10
    ∧ (match (sent vm (docket 0x0100 255 [3, 0, 0, 0, 0])).loanCheck .smb (docket 0x0100 255 [3, 0, 0, 0, 0]) with | .inr l => l.wasFree && l.newCtx.isNone | .inl _ => false) = true := by decide +kernel
/-- The loan of core 0 begun by a docket on SMBus. -/
def lending (l : Loan) (busy : Bool) : State :=
  let s := (vm.modCore 0 (fun c => { c with loan := some l })).modAe 0 (fun a => if busy then { a with slots := [req1], descs := [(0, desc1)] } else a)
  { s with host := { s.host with dockets := [⟨.smb, docket 0x0100 0 [0, 0, 0, 0, 0x100], true⟩] } }
/-- A loan to context 0 without areas, or with an image at 0x200000. -/
def loan1 (stopped : Bool) (restore : Nat) : Loan :=
  { force := false, wasFree := false, wasStopped := false, stopped := stopped, newCtx := some 0, save := 0, restore := restore, startPc := 0x100, via := .smb, started := 0 }
theorem test_meets_LoanPhases : (lending (loan1 false 0) false).host.dockets.find? (fun d => d.via == .smb) = some ⟨.smb, docket 0x0100 0 [0, 0, 0, 0, 0x100], true⟩ ∧ dOpcode (docket 0x0100 0 [0, 0, 0, 0, 0x100]) = 0x0100 ∧ param (docket 0x0100 0 [0, 0, 0, 0, 0x100]) 0 = 0
    ∧ (lending (loan1 false 0) false).mayRun .smb = true ∧ ((lending (loan1 false 0) false).loanStop 0 (by decide) (loan1 false 0)).isSome = true ∧ ((lending (loan1 true 0) false).core 0).loan = some (loan1 true 0)
    ∧ (lending (loan1 true 0) false).loanQuiet 0 = true ∧ (lending (loan1 true 0) true).loanQuiet 0 = false
    ∧ imageOkay (((lending (loan1 true 0x200000) false).loanSwitch 0 (loan1 true 0x200000)).imageTop 0 0 0x200000) 0 = false := by decide +kernel
theorem test_meets_Catalogue2 : runs lent3 0x0101 (docket 0x0101 0 [1279, 0]) = true ∧ lent3.contextExists 0 = true ∧ param (docket 0x0101 0 [1279, 0]) 0 = 1279 ∧ runs lent3 0x0102 (docket 0x0102 0 [63, 511, 0]) = true ∧ lent3.rangeBusy 511 = false ∧ lent3.physLent 511 = false
    ∧ runs lent3 0x0102 (docket 0x0102 0 [5, 5, 1]) = true ∧ lent3.syncRange 0 5 = some 5 ∧ lent3.rangeBusy 5 = false
    ∧ runs lent3 0x0103 (docket 0x0103 0 [0, 11, 16]) = true ∧ ((List.range 64).filter (fun x => x != 0)).foldl (fun m x => m + shareOf lent3.cat.linkShares x 11) 16 ≤ 16
    ∧ runs lent3 0x0103 (docket 0x0103 0 [1, 15, 16]) = true ∧ ((List.range 64).filter (fun x => x != 0)).foldl (fun m x => m + shareOf lent3.cat.upeShares x 15) 16 ≤ 16
    ∧ runs lent3 0x0104 (docket 0x0104 0 [4, 0, 1, 0x10000]) = true ∧ (docketRow 0xFFFF).isNone = true := by decide +kernel
theorem test_meets_Catalogue3 : 0 + 1 ≤ catCount 4 ∧ lent3.rangeNamed .smb 0x10000 4 = true ∧ runs lent3 0x0105 (docket 0x0105 0 [127]) = true ∧ lent3.stopped 127 = true ∧ (lent3.catCore 127).state = 0 ∧ (lent3.region (regionOf 127)).spare ≠ 0x1F
    ∧ (lent3.setRegion (regionOf 127) { lent3.region (regionOf 127) with spare := 0x1F }).region (regionOf 127) = { lent3.region (regionOf 127) with spare := 0x1F }
    ∧ ((sent lent3 ((docket 0x0700 0 [1, 2, 3]).take 20)).docketCheck .smb ((docket 0x0700 0 [1, 2, 3]).take 20)).isSome = true ∧ dOpcode ((docket 0x0700 0 [1, 2, 3]).take 20) = 0x0700 ∧ (sent lent3 ((docket 0x0700 0 [1, 2, 3]).take 20)).mayRun .smb = true := by decide +kernel
/-- Core 0 quiesces for a loan since 0 and does not come to rest. -/
def restless (force : Bool) : State := (at_ (lending { loan1 true 0 with force := force } true) 1000000).advance 0
theorem test_meets_LoanTimeout : ((restless false).core 0).loan = some (loan1 true 0) ∧ ((restless true).core 0).loan = some { loan1 true 0 with force := true } ∧ ((restless true).host.dockets.find? (fun d => d.via == .smb)).isSome = true
    ∧ (restless false).loanQuiet 0 = false ∧ (restless true).loanQuiet 0 = false ∧ (loan1 true 0).started + 1000000 ≤ (restless true).pm.ran
    ∧ (vm.region (regionOfPa (5 * 2 ^ 30))).fenced = false ∧ vm.stackHeld (5 * 2 ^ 30) = false ∧ Memory.wf vm.mem = true := by decide +kernel
/-- A journal at 0x1000 whose slot 2 is in flight, its program at 0x3000, no program at 0. -/
def rollWords (program : Nat) : List Byte := u32 1 ++ u16 2 ++ List.replicate 0x7A 0 ++ List.replicate 0x60 0 ++ u64 program ++ List.replicate 0x18 0
/-- Port 11 enabled and up, the identity known. -/
def linked : State := ({ vm with links := { vm.links with selfId := some 7, ports := [(11, { state := 2 })] } } : State).setReg (.port 11) 0 1
theorem test_meets_LinkDockets : runs vm 0x0200 (docket 0x0200 0 [16383]) = true ∧ runs vm 0x0201 (docket 0x0201 0 [16384]) = true ∧ runs vm 0x0202 (docket 0x0202 0 [7]) = true ∧ (∀ c, c < 64 → c ≠ 0 → vm.jobOf c ≠ 7) ∧ runs vm 0x0203 (docket 0x0203 0 [16383, 0xFFFF]) = true
    ∧ runs vm 0x0204 (docket 0x0204 0 [16383, 16383]) = true ∧ runs vm 0x0205 (docket 0x0205 0 [1, 11, 16383, 1, 0x10000]) = true ∧ runs vm 0x0206 (docket 0x0206 0 [11]) = true ∧ (linked.lport 11).state = 2 ∧ (vm.lport 11).state ≠ 2 ∧ runs vm 0x0206 (docket 0x0206 0 [15]) = true := by decide +kernel
theorem test_meets_LinkDockets2 : runs linked 0x0207 (docket 0x0207 0 [11]) = true ∧ (linked.reg (.port 11) 0).testBit 0 = true ∧ linked.links.selfId.isSome = true ∧ runs (aligning true) 0x0208 (docket 0x0208 0 []) = true ∧ (aligning true).pm.source.isSome = true ∧ (aligning true).pm.stepped = true
    ∧ runs vm 0x0400 (docket 0x0400 0 [16383, 0x1000, 0x2000]) = true ∧ (vm.host.scans.find? (fun z => z.via == .smb)).isNone = true := by decide +kernel
/-- A scan whose trailers have come, or that failed. -/
def scanned (failed : Option Nat) : State :=
  let s := sent vm (docket 0x0400 0 [1, 0x1000, 0x2000])
  { s with host := { s.host with dockets := [⟨.smb, docket 0x0400 0 [1, 0x1000, 0x2000], true⟩], scans := [{ via := .smb, trailers := true, failed := failed, started := 0 }] } }
theorem test_meets_ScanDone : (scanned none).host.dockets.find? (fun d => d.via == .smb) = some ⟨.smb, docket 0x0400 0 [1, 0x1000, 0x2000], true⟩ ∧ dOpcode (docket 0x0400 0 [1, 0x1000, 0x2000]) = 0x0400 ∧ (scanned none).mayRun .smb = true
    ∧ (scanned none).host.scans.find? (fun z => z.via == .smb) = some { via := .smb, trailers := true, started := 0 } ∧ (scanned (some 7)).host.scans.find? (fun z => z.via == .smb) = some { via := .smb, trailers := true, failed := some 7, started := 0 }
    ∧ (scanned (some 7)).mayRun .smb = true := by decide +kernel
theorem test_meets_ModuleDockets : runs vm 0x0300 (docket 0x0300 0 []) = true ∧ vm.tripHolds = none ∧ runs vm 0x0301 (docket 0x0301 0 [7]) = true ∧ runs vm 0x0301 (docket 0x0301 0 [8]) = true ∧ runs vm 0x0302 (docket 0x0302 0 []) = true ∧ vm.contextExists 0 = true
    ∧ runs vm 0x0303 (docket 0x0303 0 []) = true ∧ runs vm 0x0304 (docket 0x0304 0 [127, 0x100]) = true ∧ (vm.catCore 127).state ≠ 3 ∧ vm.stopped 127 = true ∧ (vm.core 127).stopBy = 0 ∧ ((vm.modCore 127 (fun c => { c with stopBy := 1 })).core 127).stopBy ≠ 0
    ∧ runs vm 0x0306 (docket 0x0306 0 [7, 15]) = true ∧ (vm.stopped 127 || vm.frozen (.cu 127) || vm.ctxFrozen 127) = true ∧ (vm.stopped 0 || vm.frozen (.cu 0) || vm.ctxFrozen 0) = false ∧ runs vm 0x0306 (docket 0x0306 0 [0, 0]) = true
    ∧ runs vm 0x0306 (docket 0x0306 0 [7, 17]) = true ∧ runs vm 0x0306 (docket 0x0306 0 [7, 18]) = true ∧ (portAt 7 0).isSome = true ∧ runs vm 0x0306 (docket 0x0306 0 [7, 20]) = true ∧ runs vm 0x0306 (docket 0x0306 0 [7, 21]) = true := by decide +kernel
def inFlight (program : Nat) : State := { vm with mem := memPut (memPut vm.mem 0x1000 (rollWords program)) 0x3000 (u32 1 ++ List.replicate 0xBC 0 ++ u32 1) }
/-- RECOVER of it begun. -/
def recovering : State := { inFlight 0x3000 with host := { vm.host with dockets := [⟨.smb, docket 0x0305 0 [0, 0x1000], true⟩] }, turns := [(0, { rolling := some (0, 1) })] }
/-- A layer descriptor that runs pass 2 over the journal at 0x1000. -/
def journaling : State := vm.setUpe 0 0 { upe1 3 with words := u32 (2 ^ 5) ++ List.replicate 0x54 0 ++ u64 0x1000 ++ List.replicate 0x20 0 }
theorem test_meets_ModuleDockets2 : runs vm 0x0305 (docket 0x0305 0 [0, 0x1000]) = true ∧ inStack 0 0x1000 256 = true ∧ vm.rangeNamed .smb 0x1000 256 = true ∧ vm.journalBusy 0 0x1000 = false ∧ journaling.journalBusy 0 0x1000 = true ∧ viaFn .smb = 0
    ∧ recovering.host.dockets.find? (fun d => d.via == .smb) = some ⟨.smb, docket 0x0305 0 [0, 0x1000], true⟩ ∧ dOpcode (docket 0x0305 0 [0, 0x1000]) = 0x0305 ∧ recovering.mayRun .smb = true
    ∧ runs (vm.setReg (.sync 0) 0x100 0x200000) 0x0500 (docket 0x0500 0 []) = true
    ∧ (vm.setReg (.sync 0) 0x100 0x200000).pmArea 0 = some 0x200000 ∧ runs vm 0x0501 (docket 0x0501 0 [127]) = true ∧ runs vm 0x0600 (docket 0x0600 0 [1500]) = true ∧ runs vm 0x0600 (docket 0x0600 0 [5601]) = true ∧ runs vm 0x0601 (docket 0x0601 0 []) = true := by decide +kernel
theorem test_meets_Recover : fieldAt (vm.upeRead 0 0 0x1000 256).bytes 4 2 % 8 ≠ 2 ∧ (vm.upeRead 0 0 0x1000 256).poison = false ∧ fieldAt ((inFlight 0).upeRead 0 0 0x1000 256).bytes 4 2 % 8 = 2
    ∧ (((inFlight 0).upeRead 0 0 0x1000 256).st.rollPlan 0 0 0x1000 ((inFlight 0).upeRead 0 0 0x1000 256).bytes).isNone = true ∧ fieldAt ((inFlight 0x3000).upeRead 0 0 0x1000 256).bytes 4 2 % 8 = 2
    ∧ (((inFlight 0x3000).upeRead 0 0 0x1000 256).st.rollPlan 0 0 0x1000 ((inFlight 0x3000).upeRead 0 0 0x1000 256).bytes).isSome = true ∧ ((inFlight 0x3000).upeRead 0 0 0x1000 256).poison = false
    ∧ (({ inFlight 0x3000 with memPoison := [32] } : State).upeRead 0 0 0x1000 256).poison = true ∧ (((inFlight 0x3000).upeRead 0 0 0x1000 256).st.turnsOf 0).rolling = none ∧ ((recovering.upeRead 0 0 0x1000 256).st.turnsOf 0).rolling ≠ none := by decide +kernel
/-- A package for record 7 that the signature check accepts, if it accepts it. -/
def package7 : List Byte := u32 0x4B505253 ++ u32 1 ++ u64 0 ++ u16 7 ++ List.replicate 206 0
theorem test_meets_Package : package7.length = 224 ∧ fieldAt package7 0x10 2 = 7 ∧ fieldAt package7 0x14 4 = 0 := by decide +kernel
theorem test_meets_PackageOkay (h : Config.sigValid package7 = true) : vm.packageOkay package7 = true := by
  have a : 0x80 + fieldAt package7 0x14 4 + 96 = package7.length := by decide +kernel
  have b : fieldAt package7 0 4 = 0x4B505253 := by decide +kernel
  have c : tget vm.srm.versions (fieldAt package7 0x10 2) 0 < fieldAt package7 4 4 := by decide +kernel
  have d : fieldAt package7 8 8 = 0 := by decide +kernel
  have e : fieldAt package7 0x10 2 = 7 := by decide +kernel
  rw [e] at c
  simp [State.packageOkay, a, b, c, d, e, h]
theorem test_meets_ModuleDockets3 : runs vm 0x0700 (docket 0x0700 0 [7, 0, 992]) = true ∧ runs vm 0x0800 (docket 0x0800 0 [0x10000, 64]) = true ∧ vm.rangeNamed .smb 0x10000 64 = true ∧ vm.host.nvBusy = false ∧ runs vm 0x0701 (docket 0x0701 0 [0x10000, 64]) = true
    ∧ (vm.readPhys .mpwr 0xFF 0x10000 64).st.packageOkay (vm.readPhys .mpwr 0xFF 0x10000 64).bytes = false ∧ runs ({ vm with host := { vm.host with nvBusy := true, fwImage := true } } : State) 0x0801 (docket 0x0801 0 []) = true
    ∧ ({ vm with host := { vm.host with nvBusy := true } } : State).host.nvBusy = true ∧ runs ({ vm with host := { vm.host with fwImage := true } } : State) 0x0801 (docket 0x0801 0 []) = true ∧ runs vm 0x0802 (docket 0x0802 0 []) = true ∧ runs vm 0x0900 (docket 0x0900 0 []) = true := by decide +kernel
theorem test_meets_ModuleDockets4 : runs vm 0x0901 (docket 0x0901 0 []) = true ∧ runs vm 0x0A00 (docket 0x0A00 0 []) = true ∧ runs vm 0x0A01 (docket 0x0A01 0 []) = true ∧ vm.pwr.standby = true ∧ vm.host.flr = [] ∧ vm.host.vfOff = false
    ∧ ({ vm with pwr := { vm.pwr with trip := some (9, 1, 0), tripStands := true } } : State).tripHolds = some 9 := by decide +kernel

/-! ## Power, module reset, the event fabric, the whole machine -/

/-- Standby alone, its input qualified or not; rails up and a reset due. -/
def onStandby (input : Bool) : State := { vm with pwr := { vm.pwr with input := input, softStart := input, rails := false, ready := false } }
theorem test_meets_PowerUp : ((onStandby false).advance 0).pwr.standby = true ∧ ((onStandby false).advance 0).pwr.softStart = false ∧ 10000 ≤ ((onStandby false).advance 0).pwr.inWindow ∧ ({ onStandby false with pwr := { (onStandby false).pwr with inWindow := 9999 } } : State).pwr.inWindow < 10000
    ∧ (onStandby true).pwr.standby = true ∧ (onStandby true).pwr.softStart = true ∧ (onStandby true).pwr.input = true ∧ (onStandby true).pwr.rails = false ∧ (onStandby true).mayRise = true ∧ vm.tripHolds = none
    ∧ ({ vm with pwr := { vm.pwr with trip := some (9, 1, 0), tripStands := true } } : State).tripHolds ≠ none := by decide +kernel
/-- A module in reset whose clocks have been arbitrated and whose slacks were measured. -/
def clocksUp : State := { vm with csvs := (List.range 8).map (fun d => (d, { measured := true })), pwr := { vm.pwr with resetting := true, ready := false, lastArb := some 0 } }
theorem test_meets_ModuleReady : clocksUp.pwr.resetting = true ∧ clocksUp.pwr.rails = true ∧ clocksUp.pwr.perst = false ∧ clocksUp.pwr.lastArb.isSome = true ∧ (∀ d, d < 8 → (tget clocksUp.csvs d {}).measured = true) ∧ vm.pwr.lastArb = none ∧ (tget vm.csvs 0 {}).measured = false := by decide +kernel
/-- Samples: a quiet one, one with a junction at 105 degrees, one whose reference is lost. -/
def quiet : PowerSample := ⟨0, 60000, 1000, List.replicate 8 0, 40, 40, false⟩
/-- The sample with the current that stage 1 lets through. -/
def passed (m : PowerSample) : PowerSample := { m with ma := min m.ma (if (vm.advance m.now).pwr.rails = true then (vm.advance m.now).srm.current else min 20000 (vm.advance m.now).srm.current) }
/-- The state a sample is judged in. -/
def judged (m : PowerSample) : State := (((vm.advance m.now).takeSample m).inputFlags (vm.advance m.now).pwr.mv m.mv)
theorem test_meets_Samples : (vm.advance 0).pwr.trip = none ∧ (judged (passed quiet)).pwr.rails = true ∧ (judged (passed quiet)).pwr.trip = none ∧ (List.range 10).find? ((judged (passed { quiet with refLost := true })).tripAt (passed { quiet with refLost := true })) = some 9
    ∧ (List.range 10).find? ((judged (passed { quiet with junction := 105 })).tripAt (passed { quiet with junction := 105 })) = none ∧ (List.range 10).find? ((judged (passed { quiet with junction := 105 })).clampAt (passed { quiet with junction := 105 })) = some 6
    ∧ (List.range 10).find? ((judged (passed quiet)).tripAt (passed quiet)) = none ∧ (List.range 10).find? ((judged (passed quiet)).clampAt (passed quiet)) = none ∧ ((onStandby true).advance 0).pwr.rails = false := by decide +kernel
/-- Inputs of an arbitration: conversion loss in watts. -/
def arbIn (loss : Nat) : ArbInput := ⟨100000, 60000, 1000, loss, List.replicate 8 100, List.replicate 8 40, []⟩
/-- The state an arbitration plans in, a clamp standing or not, with a host limit and a time since MODULE_READY. -/
def arbitrating (clamp : Option Nat) (limit : Nat) (x : Option Nat) : State :=
  (({ at_ vm 100000000 with pwr := { vm.pwr with clamp := clamp, hostLimit := limit, excursion := x } } : State).advance (arbIn 0).now).railReport (arbIn 0).rails
theorem test_meets_Clamp : 0 + 100 ≤ (({ vm with pwr := { vm.pwr with clamp := some 0, sampled := 100 } } : State).advance 0).pwr.sampled ∧ (({ vm with pwr := { vm.pwr with clamp := some 0, sampled := 100 } } : State).advance 0).pwr.clamp = some 0
    ∧ (({ vm with pwr := { vm.pwr with clamp := some 0, sampled := 99 } } : State).advance 0).pwr.sampled < 0 + 100 ∧ (vm.advance 0).pwr.clamp = none := ⟨by decide +kernel, rfl, by decide +kernel, rfl⟩
theorem test_meets_Arbiter : (arbitrating none 5599 none).pwr.ready = true ∧ (arbitrating none 5599 none).periodDue = true ∧ (arbitrating none 5599 none).arbitrates = true ∧ (arbitrating none 5599 none).pwr.clamp.isNone = true
    ∧ (arbitrating none 5599 none).pwr.excursion.isNone = true ∧ (arbitrating none 5599 none).pwr.hostLimit < 5600 ∧ (arbitrating (some 0) 5600 none).pwr.clamp.isSome = true ∧ (arbitrating (some 0) 5600 none).periodDue = true
    ∧ 5600 ≤ (arbitrating none 5600 none).pwr.hostLimit ∧ (arbitrating none 5600 none).pwr.lastExcursion.isNone = true ∧ min (min (vm.srm.limits.getD 3 (0, 0)).1 5600) (104 * 60000 / 1000) < otherDraw (arbIn 7000)
    ∧ (arbitrating none 5600 (some 99000000)).pwr.excursion = some 99000000 ∧ (arbitrating none 5600 (some 99000000)).pm.ran < 99000000 + 9000000 ∧ 91000000 + 9000000 ≤ (arbitrating none 5600 (some 91000000)).pm.ran
    ∧ (({ vm with pwr := { vm.pwr with lastArb := some 0 } } : State).periodDue = false) ∧ (List.replicate 8 100).length = 8
    ∧ ({ vm with pwr := { vm.pwr with ready := false, resetting := false, sampled := 10 } } : State).periodDue = true ∧ ({ vm with pwr := { vm.pwr with ready := false, resetting := false, sampled := 10 } } : State).arbitrates = false
    ∧ ((List.replicate 8 100).map (min 60)).foldl (· + ·) 0 + otherDraw (arbIn 0) ≤ 580 := by decide +kernel
/-- Core 3 sleeps no longer and its share is with others. -/
def lentShare : State := { vm with pwr := { vm.pwr with lent := [(3, 500)] } }
theorem test_meets_Shares : lentShare.pwr.lent.filter (fun x => regionOf x.1 == 0 && !(lentShare.lenders 0).contains x.1) = [(3, 500)] ∧ vm.pwr.lent.filter (fun x => regionOf x.1 == 0 && !(vm.lenders 0).contains x.1) = [] ∧ (7 : Nat) < vm.pwr.goals.length ∧ (7 : Nat) < vm.pwr.steps.length
    ∧ vm.pm.ran ≤ 5 := by decide +kernel
/-- Region 7 at step 8 with a goal, its rail at the voltage of its table or below. -/
def clocked (goal mv : Nat) : State := { vm with csvs := [(7, { table := List.replicate 57 700 })], pwr := { vm.pwr with steps := List.replicate 8 8, goals := List.replicate 8 goal, vcore := [(7, ⟨mv, mv, 0⟩)] } }
theorem test_meets_Clocks : ((clocked 0 2000).advance 0).pwr.ready = true ∧ (((clocked 0 2000).advance 0).region 7).clockLost = false ∧ ((clocked 0 2000).advance 0).pwr.goals.getD 7 0 < ((clocked 0 2000).advance 0).pwr.steps.getD 7 0
    ∧ ((clocked 16 2000).advance 0).pwr.steps.getD 7 0 < ((clocked 16 2000).advance 0).pwr.goals.getD 7 0 ∧ ((clocked 16 2000).advance 0).tableMv 7 16 ≤ ((clocked 16 2000).advance 0).vcoreNow 7
    ∧ ((clocked 16 100).advance 0).vcoreNow 7 < ((clocked 16 100).advance 0).tableMv 7 16 ∧ ((clocked 8 100).advance 0).pwr.goals.getD 7 0 = ((clocked 8 100).advance 0).pwr.steps.getD 7 0
    ∧ 15 ∈ vm.blocks 7 ∧ vm.pwr.ready = true ∧ (vm.region 7).clockLost = false ∧ dark.pwr.ready = false := by decide +kernel
theorem test_meets_Conservator : (tget ((at_ vm 150000).advance 0).csvs 7 {}).stepSince + 150000 ≤ ((at_ vm 150000).advance 0).pm.ran ∧ (((at_ vm 150000).advance 0).region 7).clockLost = false ∧ ((at_ vm 150000).advance 0).frozen (.csv 7) = false
    ∧ (clocksUp.advance 0).pwr.resetting = true ∧ (clocksUp.advance 0).pwr.perst = false ∧ ((vm.modFrame (.csv 7) (fun f => { f with frozen := true })).advance 0).frozen (.csv 7) = true ∧ (tget ({ vm with csvs := [(7, { measured := true, request := true })] } : State).csvs 7 {}).request = true
    ∧ (tget ({ vm with csvs := [(7, { measured := true })] } : State).csvs 7 {}).measured = true ∧ 0 + 600000000000 ≤ (({ at_ vm 600000000000 with csvs := [(7, { measured := true })] } : State).advance 0).operated 7
    ∧ (tget (vm.advance 0).csvs 7 {}).measured = false ∧ vm.target .mgmt (regionBase 7 + 0xE04004) true = .frame (.csv 7) 4 0 := by decide +kernel
theorem test_meets_ModuleReset : ({ vm with pwr := { vm.pwr with armed := true } } : State).pwr.armed = true ∧ vm.pwr.rails = true ∧ vm.pwr.perst = false ∧ vm.pwr.trip = none ∧ ({ vm with pwr := { vm.pwr with resetting := true } } : State).pwr.resetting = true := by decide +kernel
/-- A record of code 0x206, of region 0 or the registrar; a ring of context 0 at 0x20000. -/
def rec1 : EvRec := { code := 0x106, ctx := 0, src := .cu 0, source := 0x1100000, first := 0, last := 0, count := 1, accession := 0, payload := List.replicate 24 0 }
def ring1 : RingSt := { addr := 0x20000, log2 := 6, producer := 63, consumer := 0, lost := 0, signalled := false }
/-- Records in hub 0, at the root, and a ring. -/
def flowing (n : Nat) : State := { vm with ev := { vm.ev with hubs := [(0, [rec1])], root := [(0, List.replicate n rec1)], rings := [(0, ring1)] } }
theorem test_meets_Fabric : vm.pwr.ready = true ∧ ((flowing 0).hubPick 0).isSome = true ∧ accepts (classOf rec1.code) ((tget (flowing 0).ev.root 0 []).length) = true ∧ accepts (classOf rec1.code) ((tget (flowing 16).ev.root 0 []).length) = false ∧ (flowing 1).ring 0 = some ring1
    ∧ (flowing 1).rootPick = some (0, rec1, []) ∧ ring1.room (classOf rec1.code) = true ∧ (0 : Nat) ≠ 8 := by decide +kernel
theorem test_meets_RingWrite : (vm.region (regionOfPa ring1.addr)).fenced = false ∧ (vm.region (regionOfPa (ring1.addr + 0x80 + 64 * (ring1.producer.toNat % 2 ^ ring1.log2)))).fenced = false ∧ ring1.addr % 128 = 0 ∧ (rec1.bytes ring1.producer).length = 64 ∧ Memory.wf vm.mem = true
    ∧ vm.stackHeld ring1.addr = false ∧ vm.stackHeld (ring1.addr + 0x80 + 64 * (ring1.producer.toNat % 2 ^ ring1.log2)) = false
    ∧ ring1.signalled = false ∧ (tget vm.host.fns 0 {}).busMaster = true ∧ (((tget vm.host.fns 0 {}).msix.getD 1 {}).masked) = false := by decide +kernel
/-- Corrections reported at 0, with 5 since. -/
def corrected : State := { vm with ev := { vm.ev with ecc := [(.core 127, (0, 5)), (.stack 7 1, (0, 5))] } }
theorem test_meets_Corrections : (vm.ev.ecc.find? (fun e => e.1 == EccSource.core 127)).isNone = true ∧ (corrected.ev.ecc.find? (fun e => e.1 == EccSource.core 127)).map (·.2) = some (0, 5) ∧ (corrected.ev.ecc.find? (fun e => e.1 == EccSource.stack 7 1)).map (·.2) = some (0, 5)
    ∧ (at_ corrected 999999).pm.ran < 0 + 1000000 ∧ 0 + 1000000 ≤ (at_ corrected 1000000).pm.ran := by decide +kernel
/-- A line of the memory cache of core 127 with a valid sector. -/
def lined : State := vm.modCache 127 (fun c => { c with lines := [((255, 15), ⟨9, List.replicate 4 { valid := true }⟩)] })
theorem test_meets_Errors : vm.siteOf 127 ≠ 0xFF ∧ vm.pwr.ready = true ∧ ((vm.setQueue 127 15 (List.replicate 64 entry)).queue 127 15)[63]? = some entry ∧ ((vm.modCache 127 (fun c => { c with tray := [⟨32, [], false⟩] })).cache 127).tray[0]? = some ⟨32, [], false⟩
    ∧ vm.ownFrozen (.tcu 127 3) = false ∧ vm.ownFrozen (.sync 7) = false ∧ (vm.modFrame (.ae 127) (fun f => { f with frozen := true })).ownFrozen (.ae 127) = true ∧ (1 : W32) ≠ 0
    ∧ ((lined.cache 127).lines.find? (fun e => e.1 == (255, 15))).map (fun e => ((e.2.sectors.getD 3 {}).valid, e.2.sectors.length)) = some (true, 4)
    ∧ (((vm.modArr 127 3 (fun x => { x with gens := [⟨1, 0, mkCfg 15 15 0 0, []⟩] })).arr 127 3).gens.getLast?).isSome = true
    ∧ (0x13FFFFFFFFF : BitVec 41).toNat < memTop ∧ ((((at_ vm 1000000).setReg (.evt 7) 0x10 1).advance 0).reg (.evt 7) 0x10).testBit 0 = true
    ∧ tget (((at_ vm 1000000).setReg (.evt 7) 0x10 1).advance 0).ev.snaps 7 0 + max 1 (bits (((((at_ vm 1000000).setReg (.evt 7) 0x10 1).advance 0).reg (.evt 7) 0x10)) 8 16) * 1000 ≤ (((at_ vm 1000000).setReg (.evt 7) 0x10 1).advance 0).pm.ran := by decide +kernel
/-- The state after reset keeps its memories canonical, and so has a state that every step from which keeps them. -/
theorem test_meets_StepKeepsMemory : State.reset.memoryWf ∧ vm.memoryWf ∧ (front (.nop k0) vm).memoryWf := by unfold State.memoryWf; decide +kernel
theorem test_meets_IdleTick : State.reset.pending = [] ∧ State.reset.pwr.ready = true ∧ State.reset.pm.slew = 0 ∧ ({ vm with pm := { vm.pm with slew := 3, slewAt := 9999 } } : State).pm.slewAt ≥ 9999 ∧ dark.pwr.ready = false ∧ State.reset.pm.master.toNat < 2 ^ 63 := by decide +kernel
theorem test_meets_Numbers : 0x7F800001 < 2 * fmt32.signBit ∧ fmt32.num 0x7F800001 = .nan true ∧ fmt32.num 0xFFC00000 = .nan false ∧ fmt32.num 0x7F800000 = .inf false ∧ fmt32.num 0xFF800000 = .inf true ∧ (fmt32.num 0x80000000).isFin = true ∧ (fmt32.num 0x80000000).value = 0
    ∧ (fmt32.num 0x3F800000).value = 1 ∧ (fmt32.num 1).isFin = true ∧ (fmt32.num 0x3FC00000).value * (fmt32.num 0x3F000000).value ≠ 0 ∧ (fmt32.num 0xBF800000).value + (fmt32.num 0x3F800000).value = 0 ∧ (fmt32.num 0xBF800000).value < 0
    ∧ fmt32.neg 0 ≠ fmt32.neg 0x80000000 ∧ fmt64.num 0x7FF0000000000001 = .nan true ∧ 0x7FF0000000000001 < 2 * fmt64.signBit ∧ fmt64.num 0xFFF0000000000000 = .inf true ∧ (fmt64.num 0x3FF0000000000000).value = 1 := by decide +kernel
theorem test_meets_ShortNumbers : (kNum 10 0x7FFF).value ≠ 0 ∧ (kNum 10 0x8000).value = 0 ∧ (kNum 10 0xBC00).value < 0 ∧ 0 < (kNum 10 0x3C00).value ∧ (kNum 10 0x3C00).value + (kNum 10 0xBC00).value = 0 ∧ (0xFFFF : Nat) < 2 ^ (10 + 6) ∧ (kNum 6 0xFFF).value ≠ 0 ∧ (0xFFF : Nat) < 2 ^ (6 + 6) := by decide +kernel
/-- 1 + 2^-24, which lies between two binary32 numbers; twice the largest number; 1 + 1. -/
theorem test_meets_Fold_between : ((2 ^ 23 : Nat) : Rat) * (2 : Rat) ^ (-23 : Int) < ((fmt32.num 0x3F800000).value + (fmt32.num 0x33800000).value).abs
    ∧ ((fmt32.num 0x3F800000).value + (fmt32.num 0x33800000).value).abs < ((2 ^ 23 : Nat) : Rat) * (2 : Rat) ^ (-23 : Int) + (2 : Rat) ^ (-23 : Int) ∧ (2 : Rat) ^ (128 : Int) ≤ ((fmt32.num 0x7F7FFFFF).value + (fmt32.num 0x7F7FFFFF).value).abs
    ∧ (fmt32.num 0x40000000).value = (fmt32.num 0x3F800000).value + (fmt32.num 0x3F800000).value := by decide +kernel
theorem test_meets_ResetScopes : (running 4).upeAt 0 0 = some (upe1 4) ∧ (running 4).rangeLent 0 (0x10000 + 0x78) 8 = true ∧ ((running 4).region (regionOfPa (0x10000 + 0x78))).fenced = false ∧ (running 4).stackHeld (0x10000 + 0x78) = false ∧ (0x10000 + 0x78) % 128 ≤ 120
    ∧ (0x10000 + 0x78) % 2 ^ 30 ≤ 2 ^ 30 - 8 ∧ (staged 2 0).stagesOf 0 0 = [stage1 2] ∧ (staged 2 0).rangeLent 0 (0x10000 + 0x38) 8 = true ∧ (staged 2 0).stackHeld (0x10000 + 0x38) = false ∧ (0x10000 + 0x38) % 128 ≤ 120 ∧ 0 ∈ vm.coresLent 0 ∧ 5 ∈ vm.rangesLent 0
    ∧ (portAt 7 0).isSome = true ∧ regionOfPa 0 = 0 ∧ ((vm.quarantine 0 0).region 0).fenced = true := by decide +kernel

end Sys2Proof.Tests
end

section
/-! PROOFS. Register writes by an agent: where they lead, the views of an ordinary register, status registers, and the accessions of raised flags (R46 to R57). -/
namespace Sys2Proof.Machine

/-! ## Where an access leads -/

/-- The strongroom's two frames in the physical function's BAR0 (R537). -/
theorem State.pfTarget_strongroom (s : State) (o : Nat) (hlo : 0x100000 ≤ o) (hhi : o < 0x108000) :
    s.pfTarget o = .frame .srm (o % 0x1000) (o / 0x1000 % 4) ∨ s.pfTarget o = .frame .srmCal (o % 0x1000) (o / 0x1000 % 4) := by
  have h0 : ¬ o < 0x10000 := by omega
  by_cases h : o < 0x104000
  · left
    unfold State.pfTarget
    simp [show ¬ o < 0x4000 by omega, show ¬ o < 0x8000 by omega, show ¬ o < 0xC000 by omega, h0, hlo, h]
  · right
    unfold State.pfTarget
    simp [show ¬ o < 0x4000 by omega, show ¬ o < 0x8000 by omega, show ¬ o < 0xC000 by omega, h0, hhi, h, show 0x104000 ≤ o by omega]

/-- An access to the strongroom leads to one of its frames, or for a core nowhere (R69). -/
theorem State.target_strongroom (s : State) (ag : Agent) (o : Nat) (wr : Bool) (h : inStrongroom ag o = true) :
    s.target ag o wr = .nothing ∨ ∃ f off view, s.target ag o wr = .frame f off view ∧ (f = .srm ∨ f = .srmCal) := by
  simp only [inStrongroom, Bool.and_eq_true, decide_eq_true_eq] at h
  obtain ⟨⟨hlo, hhi⟩, hag⟩ := h
  unfold State.target
  split
  · exact .inl rfl
  · cases ag with
    | host fn =>
      simp only [beq_iff_eq] at hag
      simp only [hag, if_true]
      rcases s.pfTarget_strongroom o hlo hhi with e | e <;> simp [e]
    | core k => rcases s.pfTarget_strongroom o hlo hhi with e | e <;> simp [e, ownFrame]
    | mgmt => rcases s.pfTarget_strongroom o hlo hhi with e | e <;> simp [e]

theorem State.not_inStrongroom_of_frame (s : State) {ag : Agent} {o : Nat} {wr : Bool} {f : FrameId} {off view : Nat}
    (h : s.target ag o wr = .frame f off view) (hs : f ≠ .srm) (hc : f ≠ .srmCal) : inStrongroom ag o = false := by
  by_cases hin : inStrongroom ag o = true
  · rcases s.target_strongroom ag o wr hin with e | ⟨g, _, _, e, hg⟩
    · simp [e] at h
    · rw [e] at h; injection h with h; subst h; rcases hg with rfl | rfl <;> contradiction
  · simpa using hin

theorem State.not_inStrongroom_of_poweredDown (s : State) {ag : Agent} {o : Nat} {wr : Bool}
    (h : s.target ag o wr = .poweredDown) : inStrongroom ag o = false := by
  by_cases hin : inStrongroom ag o = true
  · rcases s.target_strongroom ag o wr hin with e | ⟨g, _, _, e, _⟩ <;> simp [e] at h
  · simpa using hin

/-! ## Writes -/

/-- The strongroom's frame holds nothing but what is computed when read (R512). -/
theorem ne_srm_of_regInfo {f : FrameId} {off : Nat} {i : RegInfo} (hi : regInfo f off = some i) (hk : i.kind ≠ .live) : f ≠ .srm := by
  rintro rfl
  simp only [regInfo, regsSrm, rLive] at hi
  grind

theorem State.writeReg_writeFrame (s : State) {f : FrameId} {off : Nat} {i : RegInfo} (hi : regInfo f off = some i)
    (hs : f ≠ .srm) (hc : f ≠ .srmCal) (hp : ∀ d, f ≠ .ptb d) (view raw : Nat) :
    s.writeReg f off view raw = some (s.writeFrame f off view raw) := by
  cases f <;> simp_all [State.writeReg]

theorem State.write_writeFrame (s : State) {ag : Agent} {o : Nat} {f : FrameId} {off view : Nat} {i : RegInfo}
    (ht : s.target ag o true = .frame f off view) (hi : regInfo f off = some i)
    (hs : f ≠ .srm) (hc : f ≠ .srmCal) (hp : ∀ d, f ≠ .ptb d) (v : Nat) :
    s.write ag o v = s.writeFrame f off view v := by
  simp [State.write, s.not_inStrongroom_of_frame ht hs hc, ht, s.writeReg_writeFrame hi hs hc hp]

/-- A stored register of an unprivileged frame: a write of any agent that reaches it is performed. -/
theorem State.write_unprivileged (s : State) {ag : Agent} {o : Nat} {f : FrameId} {off view : Nat} {i : RegInfo}
    (ht : s.target ag o true = .frame f off view) (hi : regInfo f off = some i) (hk : i.kind ≠ .live) (hp : f.privileged = false) (v : Nat) :
    s.write ag o v = s.writeFrame f off view v :=
  s.write_writeFrame ht hi (ne_srm_of_regInfo hi hk) (by rintro rfl; cases hp) (by rintro d rfl; cases hp) v

theorem State.writeFrame_status (s : State) {f : FrameId} {off m r : Nat} (hi : regInfo f off = some ⟨.status, m, r⟩) (raw : Nat) :
    s.writeFrame f off 0 raw = s.modFrame f (fun fr => fr.writeStatus off raw) := by
  simp [State.writeFrame, hi]

/-- Whether an offset has write actions does not depend on the state, the value or the view. -/
theorem State.writeActs_none (s t : State) {f : FrameId} {off : Nat} {v raw : Nat} {b : Bool} (h : s.writeActs f off v raw b = none)
    (v' raw' : Nat) (b' : Bool) : t.writeActs f off v' raw' b' = none := by
  unfold State.writeActs at h ⊢
  split at h
  case h_19 => -- a collective engine: its rings, else its seeds
    split at h
    · cases h
    · split at h
      · cases h
      · rw [if_neg ‹_›, if_neg ‹_›]
  all_goals simp_all

/-! ## Ordinary registers -/

theorem State.reg_lt (s : State) (f : FrameId) (off : Nat) : s.reg f off < 2 ^ 32 := BitVec.isLt _

theorem rwMask_plain {f : FrameId} {off m r : Nat} (hi : regInfo f off = some ⟨.plain, m, r⟩) (hp : f.privileged = false) :
    rwMask f off = m := by
  cases f <;> simp_all [rwMask, FrameId.privileged]

theorem viewValue_lt {view old m v : Nat} (ho : old < 2 ^ 32) (hm : m < 2 ^ 32) : viewValue view old m v < 2 ^ 32 := by
  have hv : v &&& m < 2 ^ 32 := Nat.and_lt_two_pow v hm
  unfold viewValue
  split
  · exact Nat.or_lt_two_pow (Nat.lt_of_le_of_lt Nat.and_le_left ho) hv
  · exact Nat.or_lt_two_pow ho hv
  · exact Nat.lt_of_le_of_lt Nat.and_le_left ho
  · exact Nat.xor_lt_two_pow ho hv

theorem limited_lt {f : FrameId} {off v : Nat} (h : v < 2 ^ 32) : limited f off v < 2 ^ 32 := by
  unfold limited clampNat
  split <;> grind

@[simp] theorem setHas_setDel_self (l : List Nat) (n : Nat) : setHas (setDel l n) n = false := by
  simp [setHas, setDel]

/-- A register stores a value, its parity bit recomputed: what a write that sets nothing going does (R46, R58). -/
def State.stored (s : State) (f : FrameId) (off v : Nat) : State :=
  s.modFrame f (fun fr => (fr.setReg off v).fixParity off)

theorem State.writeFrame_plain (s : State) {f : FrameId} {off m r : Nat} (hi : regInfo f off = some ⟨.plain, m, r⟩)
    (hm : m ≠ 0) (hp : f.privileged = false) (ha : ∀ x y b, s.writeActs f off x y b = none) (view raw : Nat) :
    s.writeFrame f off view raw = s.stored f off (limited f off (viewValue view (s.reg f off) m raw)) := by
  have hmask : (if view = 0 then m else rwMask f off) = m := by rw [rwMask_plain hi hp]; simp
  simp only [State.writeFrame, hi, hmask, s.writeActs_none _ (ha 0 0 true), hm, hp, State.stored]
  simp

/-- A change of a frame that leaves the word at an offset leaves the register there in every frame. -/
theorem State.reg_modFrame_of_regs (s : State) (f g : FrameId) (h : Frame → Frame) (off : Nat)
    (hr : tget (h (s.frame f)).regs off (BitVec.ofNat 32 (s.resetOf f off)) = tget (s.frame f).regs off (BitVec.ofNat 32 (s.resetOf f off))) :
    (s.modFrame f h).reg g off = s.reg g off := by
  by_cases hg : g = f
  · subst hg; simp [State.reg, hr]
  · simp [State.reg, s.frame_modFrame_ne f g h hg]

theorem State.stored_reg_self (s : State) (f : FrameId) (off v : Nat) (hv : v < 2 ^ 32) : (s.stored f off v).reg f off = v := by
  rw [State.stored, State.reg, State.frame_modFrame_self, Frame.fixParity, Frame.setReg, tget_tset_self, BitVec.toNat_ofNat, Nat.mod_eq_of_lt hv]

theorem State.stored_reg_other (s : State) {f g : FrameId} {off p : Nat} (v : Nat) (h : (g, p) ≠ (f, off)) :
    (s.stored f off v).reg g p = s.reg g p := by
  by_cases hp : p = off
  · subst hp
    have hg : g ≠ f := fun e => h (by rw [e])
    simp [State.stored, State.reg, s.frame_modFrame_ne f g _ hg]
  · exact s.reg_modFrame_of_regs f g _ p (by simp [Frame.fixParity, Frame.setReg, tget_tset_ne _ _ _ _ _ hp])

theorem State.stored_flags (s : State) (f g : FrameId) (off v : Nat) :
    ((s.stored f off v).frame g).flags = (s.frame g).flags ∧ ((s.stored f off v).frame g).accession = (s.frame g).accession := by
  by_cases hg : g = f
  · subst hg; simp [State.stored, Frame.fixParity, Frame.setReg]
  · simp [State.stored, s.frame_modFrame_ne f g _ hg]

theorem State.stored_parity (s : State) (f : FrameId) (off v : Nat) : setHas ((s.stored f off v).frame f).badParity off = false := by
  simp [State.stored, Frame.fixParity]

/-- Settles O37: through any of the four views an ordinary register stores what the view makes of it, and nothing else changes; another size ends in the bus error of its view's offset. -/
theorem registerViews : Obligations.RegisterViews := by
  unfold Obligations.RegisterViews
  intro ag off v s f o m r hi hm hm32 hp ha ht old stores
  have hsrm : f ≠ .srm := ne_srm_of_regInfo hi (by simp)
  have hcal : f ≠ .srmCal := by rintro rfl; cases hp
  have hview : ∀ w, w < 4 → inStrongroom ag (atView off.toNat w) = false :=
    fun w hw => s.not_inStrongroom_of_frame (ht w hw) hsrm hcal
  have hstores : ∀ w, w < 4 → ∀ c, exec c s = .next (s.writeSized ag (atView off.toNat w) 4 v.toNat) →
      stores c (viewValue w old m v.toNat) := by
    intro w hw c hc
    have hlt : limited f o (viewValue w old m v.toNat) < 2 ^ 32 := limited_lt (viewValue_lt (s.reg_lt f o) hm32)
    refine ⟨s.stored f o (limited f o (viewValue w old m v.toNat)), ?_, s.stored_reg_self f o _ hlt,
      fun g p h => s.stored_reg_other _ h, fun g => s.stored_flags f g o _, s.stored_parity f o _,
      rfl, rfl, rfl, rfl, rfl, rfl, rfl, rfl, rfl, rfl, rfl⟩
    rw [hc, ← s.writeFrame_plain hi hm hp ha, State.writeSized, if_pos (by simp),
      s.write_unprivileged (ht w hw) hi (by simp) hp]
  refine ⟨fun n hn => ⟨?_, ?_, ?_, ?_⟩, hstores 0 (by decide) _ rfl, hstores 1 (by decide) _ rfl,
    hstores 2 (by decide) _ rfl, hstores 3 (by decide) _ rfl⟩
  all_goals
    show Host.Outcome.next (s.writeSized ag (atView off.toNat _) n v.toNat) = _
    simp [State.writeSized, hn, hview]

/-! ## Status registers -/

theorem Frame.cleared_lt (fr : Frame) (off v n : Nat) : fr.cleared off v n < 2 ^ n := by
  induction n with
  | zero => simp [Frame.cleared]
  | succ n ih => rw [Frame.cleared, Nat.pow_succ]; split <;> omega

/-- Which flags a write clears (R56). -/
theorem Frame.cleared_testBit (fr : Frame) (off v b n : Nat) :
    (fr.cleared off v n).testBit b = (decide (b < n) && v.testBit b && (tget fr.flags off 0).toNat.testBit b
      && clears (BitVec.ofNat 16 (v / 65536)) (tget fr.stamps (off, b) 0)) := by
  induction n with
  | zero => simp [Frame.cleared]
  | succ n ih =>
    rw [Frame.cleared]
    rcases Nat.lt_trichotomy b n with hb | rfl | hb
    · split
      · rw [Nat.add_comm, Nat.testBit_two_pow_add_gt hb, ih]; simp [hb, Nat.lt_succ_of_lt hb]
      · rw [Nat.add_zero, ih]; simp [hb, Nat.lt_succ_of_lt hb]
    · split
      · rename_i h; rw [Nat.add_comm, Nat.testBit_two_pow_add_eq, ih]; simp_all
      · rename_i h; rw [Nat.add_zero, ih]; simp_all
    · have hbig : 2 ^ (n + 1) ≤ 2 ^ b := Nat.pow_le_pow_right (by decide) hb
      have hsum := fr.cleared_lt off v (n + 1)
      rw [Frame.cleared] at hsum
      rw [Nat.testBit_lt_two_pow (Nat.lt_of_lt_of_le hsum hbig)]
      simp [show ¬ b < n + 1 by omega]

theorem clears_iff (n : Nat) (st : BitVec 16) :
    clears (BitVec.ofNat 16 n) st = decide (((n : Int) - st.toNat) % 65536 < 32768) := by
  unfold clears
  rw [decide_eq_decide, BitVec.toNat_sub, BitVec.toNat_ofNat]
  omega

theorem Frame.writeStatus_flag (fr : Frame) (off v b : Nat) (hb : b < 16) :
    (tget (fr.writeStatus off v).flags off 0).getLsbD b = ((tget fr.flags off 0).getLsbD b
      && !(v.testBit b && clears (BitVec.ofNat 16 (v / 65536)) (tget fr.stamps (off, b) 0))) := by
  simp only [Frame.writeStatus, tget_tset_self, BitVec.getLsbD_and, BitVec.getLsbD_not, BitVec.getLsbD_ofNat, hb, decide_true,
    Bool.true_and, Frame.cleared_testBit, BitVec.testBit_toNat]
  cases (tget fr.flags off 0).getLsbD b <;> simp

/-- Settles O38, bit by bit of what the write clears. -/
theorem statusWriteClearsByAccession : Obligations.StatusWriteClearsByAccession := by
  unfold Obligations.StatusWriteClearsByAccession
  intro ag off v s f o m r hi hsrm hcal hptb ht
  refine ⟨s.modFrame f (fun fr => fr.writeStatus o v.toNat), ?_, fun b hb => ?_, fun p hp => ?_, ?_, ?_, ?_,
    fun g hg => s.frame_modFrame_ne f g _ hg, rfl, rfl, rfl⟩
  · rw [← s.writeFrame_status hi, ← s.write_writeFrame ht hi hsrm hcal hptb]; rfl
  · rw [s.frame_modFrame_self, Frame.writeStatus_flag _ _ _ _ hb, clears_iff]; rfl
  · rw [s.frame_modFrame_self]; exact tget_tset_ne _ _ _ _ _ hp
  all_goals rw [s.frame_modFrame_self]; rfl

/-! ## Raised flags -/

/-- Raising a flag sets it and no other. -/
theorem Frame.raise_flag (fr : Frame) (off bit p c : Nat) (hb : bit < 16) :
    (tget (fr.raise off bit).flags p 0).getLsbD c = ((tget fr.flags p 0).getLsbD c || decide (p = off ∧ c = bit)) := by
  by_cases hp : p = off
  · subst hp
    simp only [Frame.raise, tget_tset_self, BitVec.getLsbD_or, BitVec.getLsbD_ofNat, Nat.testBit_two_pow, true_and]
    congr 1
    grind
  · simp [Frame.raise, tget_tset_ne _ _ _ _ _ hp, hp]

/-- A map over the values of a table changes what a present key holds; an absent key keeps reading as its default. -/
theorem tget_map_of_any {κ α : Type} [DecidableEq κ] [BEq κ] [LawfulBEq κ] (t : Tbl κ α) (k : κ) (d : α) (g : α → α) (h : t.any (fun e => e.1 == k) = true) :
    tget (t.map (fun e => (e.1, g e.2))) k d = g (tget t k d) := by
  induction t with
  | nil => simp at h
  | cons e r ih =>
    by_cases he : e.1 = k
    · simp [tget, he]
    · simp only [List.map_cons, tget, he, if_false]
      exact ih (by simpa [he] using h)

theorem any_key_tset {κ α : Type} [DecidableEq κ] [BEq κ] [LawfulBEq κ] (t : Tbl κ α) (k k' : κ) (v : α) :
    (tset t k v).any (fun e => e.1 == k') = (t.any (fun e => e.1 == k') || k == k') := by
  induction t with
  | nil => simp [tset]
  | cons e r ih =>
    by_cases he : e.1 = k
    · simp [tset, he]; grind
    · simp [tset, he, ih, Bool.or_assoc]

/-- The lag at which a stamp keeps its meaning: the next accession leaves every aged stamp within 32,767 (R57). -/
theorem ageStamp_lag (acc st : BitVec 16) (h : (acc - st).toNat ≤ 32767) : (acc + 1 - ageStamp (acc + 1) st).toNat ≤ 32767 := by
  unfold ageStamp
  split <;> bv_omega

theorem Frame.raise_stamp_self (fr : Frame) (off bit : Nat) : tget (fr.raise off bit).stamps (off, bit) 0 = fr.accession + 1 := by
  simp [Frame.raise]

theorem Frame.raise_stamp_other (fr : Frame) (off bit p c : Nat) (h : (p, c) ≠ (off, bit)) (hs : fr.stamps.any (fun e => e.1 == (p, c)) = true) :
    tget (fr.raise off bit).stamps (p, c) 0 = ageStamp (fr.accession + 1) (tget fr.stamps (p, c) 0) := by
  simp only [Frame.raise]
  rw [tget_tset_ne _ _ _ _ _ h, tget_map_of_any _ _ _ _ hs]

theorem Frame.raise_stamped (fr : Frame) (off bit p c : Nat) :
    (fr.raise off bit).stamps.any (fun e => e.1 == (p, c)) = (fr.stamps.any (fun e => e.1 == (p, c)) || (off, bit) == (p, c)) := by
  simp only [Frame.raise, any_key_tset, List.any_map]
  rfl

/-- Settles O39: every set flag's stamp is aged as the counter rises. -/
theorem flagsTakeAccessions : Obligations.FlagsTakeAccessions := by
  unfold Obligations.FlagsTakeAccessions
  intro s f o b hb t lags
  have hf : t.frame f = (s.frame f).raise o b := s.frame_modFrame_self f _
  refine ⟨?_, ?_, ?_, fun p c hpc => ?_, fun hl p c hset => ?_, fun g hg => s.frame_modFrame_ne f g _ hg, rfl, rfl⟩
  · rw [hf]; rfl
  · rw [hf, Frame.raise_flag _ _ _ _ _ hb]; simp
  · rw [hf]; exact Frame.raise_stamp_self _ _ _
  · have : ¬ (p = o ∧ c = b) := fun e => hpc (by rw [e.1, e.2])
    rw [hf, Frame.raise_flag _ _ _ _ _ hb]; simp [this]
  · rw [hf] at hset ⊢
    rw [Frame.raise_stamped]
    show _ ∧ ((s.frame f).accession + 1 - _).toNat ≤ 32767
    by_cases hpc : (p, c) = (o, b)
    · rw [hpc, Frame.raise_stamp_self]; simp
    · have hold : (tget (s.frame f).flags p 0).getLsbD c = true := by
        have : ¬ (p = o ∧ c = b) := fun e => hpc (by rw [e.1, e.2])
        rw [Frame.raise_flag _ _ _ _ _ hb] at hset
        simpa [this] using hset
      obtain ⟨hst, hlag⟩ := hl p c hold
      exact ⟨by rw [hst]; rfl, by rw [Frame.raise_stamp_other _ _ _ _ _ hpc hst]; exact ageStamp_lag _ _ hlag⟩

end Sys2Proof.Machine
end

section
/-! PROOFS. Reads, counters, hidden parity and powered-down domains (R50, R59 to R61, R71, R72, R235), and what raising an event leaves of the frames (R516 to R519). -/
namespace Sys2Proof.Machine

/-! ## What raising an event leaves of the frames -/

/-- `t` has what `s` has in its frames, but that status flags of frame `e` were raised. -/
structure FlagsRaised (e : FrameId) (s t : State) : Prop where
  srm : t.srm = s.srm
  frame : ∀ g, g ≠ e → t.frame g = s.frame g
  regs : ∀ g, (t.frame g).regs = (s.frame g).regs
  flags : ∀ o b, (tget (s.frame e).flags o 0).getLsbD b = true → (tget (t.frame e).flags o 0).getLsbD b = true

namespace FlagsRaised
variable {e : FrameId} {s t u : State}

theorem of_frames (hs : t.srm = s.srm) (hf : t.frames = s.frames) : FlagsRaised e s t := by
  have h : ∀ g, t.frame g = s.frame g := fun g => by unfold State.frame; rw [hf]
  exact ⟨hs, fun g _ => h g, fun g => by rw [h g], fun o b hb => by rw [h e]; exact hb⟩

theorem trans (h : FlagsRaised e s t) (g : FlagsRaised e t u) : FlagsRaised e s u :=
  ⟨g.srm.trans h.srm, fun x hx => (g.frame x hx).trans (h.frame x hx), fun x => (g.regs x).trans (h.regs x),
    fun o b hb => g.flags o b (h.flags o b hb)⟩

theorem reg (h : FlagsRaised e s t) (g : FrameId) (o : Nat) : t.reg g o = s.reg g o := by
  have hr : t.resetOf g o = s.resetOf g o := by unfold State.resetOf; rw [h.srm]
  unfold State.reg; rw [h.regs g, hr]

theorem raise (h : FlagsRaised e s t) (o : Nat) {b : Nat} (hb : b < 16) : FlagsRaised e s (t.raise e o b) := by
  refine h.trans ⟨rfl, fun g hg => t.frame_modFrame_ne e g _ hg, fun g => ?_, fun p c hc => ?_⟩
  · by_cases hg : g = e
    · subst hg; simp [State.raise, Frame.raise]
    · rw [State.raise, t.frame_modFrame_ne e g _ hg]
  · rw [State.raise, t.frame_modFrame_self, Frame.raise_flag _ _ _ _ _ hb, hc]; rfl

theorem ite {c : Prop} [Decidable c] (h : FlagsRaised e s t) (g : FlagsRaised e s u) : FlagsRaised e s (if c then t else u) := by
  split <;> assumption

end FlagsRaised

theorem State.setHopBuf_frames (s : State) (h : Nat) (l : List EvRec) : (s.setHopBuf h l).frames = s.frames := by
  unfold State.setHopBuf; split <;> rfl

theorem State.offer_frames (h n : Nat) : ∀ s : State, (s.offer h n).frames = s.frames := by
  induction n with
  | zero => intro s; rfl
  | succ n ih =>
    intro s
    unfold State.offer
    split
    · rfl
    · split
      · rw [ih, State.setHopBuf_frames]
      · rfl

theorem FlagsRaised.offer {e : FrameId} {s t : State} (g : FlagsRaised e s t) (h n : Nat) : FlagsRaised e s (t.offer h n) :=
  g.trans (.of_frames (by rw [State.sameButEvents_offer h n t]) (State.offer_frames h n t))

/-- A Registered or First event raises flags of its hop's event frame; it counts nothing (R516, R518). -/
theorem State.event_flagsRaised (s : State) (src : FrameId) (code ctx : Nat) (acc : BitVec 16) (p : List Byte) (hc : classOf code ≠ 2) :
    FlagsRaised (evtFrame (hopOf src)) s (s.event src code ctx acc p) := by
  have queued : ∀ ev, FlagsRaised (evtFrame (hopOf src)) s { s with ev := ev } := fun _ => .of_frames rfl rfl
  unfold State.event
  rw [if_neg hc]
  exact .ite ((FlagsRaised.offer (.ite ((queued _).raise 0 (by decide)) (queued _)) _ _).raise 0 (by decide))
    (FlagsRaised.offer (.ite ((queued _).raise 0 (by decide)) (queued _)) _ _)

/-- A flag of a region's own event frame is set with its event. -/
theorem State.flagEvent_flagsRaised (s : State) {e : FrameId} (he : evtFrame (hopOf e) = e) (o b code ctx : Nat) (p : List Byte)
    (hb : b < 16) (hc : classOf code ≠ 2) :
    FlagsRaised e s (s.flagEvent e o b code ctx p) ∧ (tget ((s.flagEvent e o b code ctx p).frame e).flags o 0).getLsbD b = true := by
  have raised : FlagsRaised e s (s.raise e o b) := .raise (.of_frames rfl rfl) o hb
  have told : FlagsRaised e (s.raise e o b) (s.flagEvent e o b code ctx p) := by
    have h := (s.raise e o b).event_flagsRaised e code ctx ((s.raise e o b).frame e).accession p hc
    rwa [he] at h
  refine ⟨raised.trans told, told.flags o b ?_⟩
  rw [State.raise, State.frame_modFrame_self, Frame.raise_flag _ _ _ _ _ hb]
  simp

/-! ## Reads -/

theorem regInfo_of_capturesLow {f : FrameId} {off : Nat} (h : capturesLow f off = true) :
    regInfo f off ≠ none ∧ ∀ k a, f = .tcu k a → off ≠ 0x10 := by
  constructor
  · intro hn; simp [capturesLow, hn] at h
  · rintro k a rfl rfl; simp [capturesLow, regInfo, regsTcu, rStatus] at h

/-- A sound register other than TCU_STAT, whose flags of the cycle a read brings up to date. -/
theorem State.readReg_readFrame (s : State) (ag : Agent) {f : FrameId} {off : Nat} (hi : regInfo f off ≠ none)
    (hb : setHas (s.frame f).badParity off = false) (ht : ∀ k a, f = .tcu k a → off ≠ 0x10) :
    s.readReg ag f off = ((s.readFrame ag f off).1, some (s.readFrame ag f off).2) := by
  obtain ⟨i, hi⟩ := Option.ne_none_iff_exists'.mp hi
  cases f <;> simp_all [State.readReg]

theorem State.read_readFrame (s : State) {ag : Agent} {o : Nat} {f : FrameId} {off view : Nat}
    (h : s.target ag o false = .frame f off view) (hi : regInfo f off ≠ none)
    (hb : setHas (s.frame f).badParity off = false) (ht : ∀ k a, f = .tcu k a → off ≠ 0x10) :
    s.read ag o = { (s.readFrame ag f off).1 with
      out := (s.readFrame ag f off).1.out ++ [.registerRead ag (BitVec.ofNat 32 (s.readFrame ag f off).2)] } := by
  simp only [State.read, h, s.readReg_readFrame ag hi hb ht]

/-- An agent's read of a low word captures the high word for it (R50). -/
def State.highCaptured (s : State) (ag : Agent) (f : FrameId) (off : Nat) : State :=
  s.modFrame f (fun fr => { fr with captures := tset fr.captures (ag, off + 4) (BitVec.ofNat 32 (s.regNow f (off + 4))) })

theorem State.readFrame_low (s : State) (ag : Agent) {f : FrameId} {off : Nat} (h : capturesLow f off = true) :
    s.readFrame ag f off = (s.highCaptured ag f off, s.regNow f off) := by
  simp [State.readFrame, h, State.highCaptured]

theorem State.readFrame_high (s : State) (ag : Agent) {f : FrameId} {off : Nat} (h4 : 4 ≤ off) (hl : capturesLow f (off - 4) = true)
    (h : capturesLow f off = false) : s.readFrame ag f off = (s, (tget (s.frame f).captures (ag, off) 0).toNat) := by
  simp [State.readFrame, h, h4, hl]

/-- A mismatch already reported is found and left (R60). -/
theorem State.parityFound_reported (s : State) {f : FrameId} {off : Nat} (h : setHas (s.frame f).reported off = true) :
    s.parityFound f off = s := by
  simp [State.parityFound, h]

theorem State.read_badParity (s : State) {ag : Agent} {o : Nat} {f : FrameId} {off view : Nat}
    (h : s.target ag o false = .frame f off view) (hi : regInfo f off ≠ none) (hb : setHas (s.frame f).badParity off = true) :
    s.read ag o = s.readFailed (s.parityFound f off) ag o := by
  obtain ⟨i, hi⟩ := Option.ne_none_iff_exists'.mp hi
  simp only [State.read, h, State.readReg, hi, hb, if_true]

theorem State.lowRead_captures (ag : Agent) (off : BitVec 28) (s : State) (f : FrameId) (o view : Nat)
    (ht : s.target ag off.toNat false = .frame f o view) (hb : setHas (s.frame f).badParity o = false) (hc : capturesLow f o = true) :
    ∃ t, exec (.capturingLowRead ag ⟨off, 4⟩) s = .next t ∧ t.out = s.out ++ [.registerRead ag (BitVec.ofNat 32 (s.regNow f o))]
      ∧ tget (t.frame f).captures (ag, o + 4) 0 = BitVec.ofNat 32 (s.regNow f (o + 4)) ∧ (∀ x, x ≠ (ag, o + 4) → tget (t.frame f).captures x 0 = tget (s.frame f).captures x 0)
      ∧ (t.frame f).regs = (s.frame f).regs ∧ (t.frame f).flags = (s.frame f).flags ∧ t.mem = s.mem ∧ t.cores = s.cores := by
  obtain ⟨hi, htcu⟩ := regInfo_of_capturesLow hc
  have hf : (s.highCaptured ag f o).frame f
      = { s.frame f with captures := tset (s.frame f).captures (ag, o + 4) (BitVec.ofNat 32 (s.regNow f (o + 4))) } := s.frame_modFrame_self f _
  refine ⟨{ s.highCaptured ag f o with out := s.out ++ [.registerRead ag (BitVec.ofNat 32 (s.regNow f o))] }, ?_, rfl, ?_, fun x hx => ?_,
    (congrArg Frame.regs hf).trans rfl, (congrArg Frame.flags hf).trans rfl, rfl, rfl⟩
  · show Host.Outcome.next (s.readSized ag off.toNat 4) = _
    rw [State.readSized, if_pos rfl, s.read_readFrame ht hi hb htcu, s.readFrame_low ag hc]
    rfl
  · exact (congrArg (fun fr => tget fr.captures _ 0) hf).trans (tget_tset_self _ _ _ _)
  · exact (congrArg (fun fr => tget fr.captures x 0) hf).trans (tget_tset_ne _ _ _ _ _ hx)

theorem State.highRead_captured (ag : Agent) (off : BitVec 28) (s : State) (f : FrameId) (o view m r : Nat)
    (ht : s.target ag off.toNat false = .frame f o view) (hb : setHas (s.frame f).badParity o = false) (h4 : 4 ≤ o)
    (hl : capturesLow f (o - 4) = true) (hc : capturesLow f o = false) (hi : regInfo f o = some ⟨.ctrHi, m, r⟩) :
    exec (.parityMismatchRead ag off) s = .next { s with out := s.out ++ [.registerRead ag (tget (s.frame f).captures (ag, o) 0)] } := by
  have htcu : ∀ k a, f = .tcu k a → o ≠ 0x10 := by
    rintro k a rfl rfl; simp [regInfo, regsTcu, rStatus] at hi
  show Host.Outcome.next (s.read ag off.toNat) = _
  rw [s.read_readFrame ht (by simp [hi]) hb htcu, s.readFrame_high ag h4 hl hc]
  simp

/-! ## Counters -/

@[simp] theorem State.counterLoaded_frame (s : State) (f g : FrameId) (off : Nat) : (s.counterLoaded f off).frame g = s.frame g := by
  cases f <;> rfl
@[simp] theorem State.counterLoaded_srm (s : State) (f : FrameId) (off : Nat) : (s.counterLoaded f off).srm = s.srm := by
  cases f <;> rfl
@[simp] theorem State.counterLoaded_mem (s : State) (f : FrameId) (off : Nat) : (s.counterLoaded f off).mem = s.mem := by
  cases f <;> rfl
@[simp] theorem State.counterLoaded_cores (s : State) (f : FrameId) (off : Nat) : (s.counterLoaded f off).cores = s.cores := by
  cases f <;> rfl

theorem State.writeFrame_ctrLo (s : State) {f : FrameId} {off : Nat} (hi : regInfo f off = some ⟨.ctrLo, 0xFFFFFFFF, 0⟩)
    (ha : ∀ x y b, s.writeActs f off x y b = none) (v : W32) :
    s.writeFrame f off 0 v.toNat
      = (s.modFrame f (fun fr => ((fr.setReg off v.toNat).setReg (off + 4) 0).fixParity off)).counterLoaded f off := by
  have hv : viewValue 0 (s.reg f off) 0xFFFFFFFF v.toNat = v.toNat := by
    simp only [viewValue, Nat.xor_self, Nat.and_zero, Nat.zero_or]
    rw [show (0xFFFFFFFF : Nat) = 2 ^ 32 - 1 from rfl, Nat.and_two_pow_sub_one_eq_mod, Nat.mod_eq_of_lt v.isLt]
  simp only [State.writeFrame, hi, s.writeActs_none _ (ha 0 0 true), if_true, hv]

theorem State.writeFrame_ctrHi (s : State) {f : FrameId} {off : Nat} (hi : regInfo f off = some ⟨.ctrHi, 0xFFFF, 0⟩)
    (ha : ∀ x y b, s.writeActs f off x y b = none) (raw : Nat) :
    s.writeFrame f off 0 raw = s.stored f off (viewValue 0 (s.reg f off) 0xFFFF raw) := by
  simp only [State.writeFrame, hi, s.writeActs_none _ (ha 0 0 true), if_true, State.stored]

theorem viewValue_low16 {old v : Nat} : viewValue 0 old 0xFFFF v % 2 ^ 16 = v % 2 ^ 16 := by
  apply Nat.eq_of_testBit_eq
  intro i
  simp only [viewValue, Nat.testBit_mod_two_pow, Nat.testBit_or, Nat.testBit_and, Nat.testBit_xor,
    show (0xFFFFFFFF : Nat) = 2 ^ 32 - 1 from rfl, show (0xFFFF : Nat) = 2 ^ 16 - 1 from rfl, Nat.testBit_two_pow_sub_one]
  by_cases h : i < 16
  · simp [h, show i < 32 by omega]
  · simp [h]

theorem State.counterWrite_low (ag : Agent) (off : BitVec 28) (v : W32) (s : State) (f : FrameId) (o : Nat)
    (ht : s.target ag (atView off.toNat 0) true = .frame f o 0) (hp : f.privileged = false)
    (ha : ∀ x y b, s.writeActs f o x y b = none) (hi : regInfo f o = some ⟨.ctrLo, 0xFFFFFFFF, 0⟩) :
    ∃ t, exec (.counterWrite ag off v) s = .next t ∧ (t.frame f).ctr f o = v.toNat
      ∧ (∀ p, p ≠ o → p ≠ o + 4 → t.reg f p = s.reg f p) ∧ t.mem = s.mem ∧ t.cores = s.cores := by
  refine ⟨_, congrArg Host.Outcome.next ((s.write_unprivileged ht hi (by simp) hp v.toNat).trans (s.writeFrame_ctrLo hi ha v)),
    ?_, fun p h1 h2 => ?_, by simp, by simp⟩
  · rw [State.counterLoaded_frame, State.frame_modFrame_self]
    simp only [Frame.ctr, Frame.reg, Frame.fixParity, Frame.setReg, tget_tset_self]
    rw [tget_tset_ne _ _ _ _ _ (by omega), tget_tset_self]
    simp
  · have hr : ∀ t : State, (t.counterLoaded f o).reg f p = t.reg f p := fun t => by
      simp [State.reg, State.resetOf]
    rw [hr, State.reg, State.frame_modFrame_self]
    simp [Frame.fixParity, Frame.setReg, tget_tset_ne _ _ _ _ _ h1, tget_tset_ne _ _ _ _ _ h2, State.reg]

theorem State.counterWrite_high (ag : Agent) (off : BitVec 28) (v : W32) (s : State) (f : FrameId) (o : Nat)
    (ht : s.target ag (atView off.toNat 0) true = .frame f o 0) (hp : f.privileged = false)
    (ha : ∀ x y b, s.writeActs f o x y b = none) (hi : regInfo f o = some ⟨.ctrHi, 0xFFFF, 0⟩) :
    ∃ t, exec (.counterWrite ag off v) s = .next t ∧ t.reg f o % 2 ^ 16 = v.toNat % 2 ^ 16
      ∧ (∀ p, p ≠ o → t.reg f p = s.reg f p) ∧ t.mem = s.mem := by
  refine ⟨_, congrArg Host.Outcome.next ((s.write_unprivileged ht hi (by simp) hp v.toNat).trans (s.writeFrame_ctrHi hi ha v.toNat)),
    ?_, fun p h => s.stored_reg_other _ (by simp [h]), rfl⟩
  rw [s.stored_reg_self f o _ (viewValue_lt (s.reg_lt f o) (by decide)), viewValue_low16]

/-! ## A parity mismatch of a control unit -/

@[simp] theorem setHas_setAdd_self (l : List Nat) (n : Nat) : setHas (setAdd l n) n = true := by
  induction l with
  | nil => simp [setAdd, setHas]
  | cons m r ih =>
    simp only [setAdd]
    split
    · simp [setHas, *]
    · split
      · simp [setHas]
      · simpa [setHas] using Or.inr (by simpa [setHas] using ih)

/-- The register with a mismatch is noted as reported, and as one that the releasing reset reloads. -/
def State.mismatchNoted (s : State) (f : FrameId) (off : Nat) : State :=
  s.modFrame f (fun fr => { fr with reported := setAdd fr.reported off, failed := setAdd fr.failed off })

/-- The error registers of an event frame: the address of a first error, the number of later ones (R60). -/
def State.errorNoted (s : State) (e : FrameId) (addr : Nat) : State :=
  if (tget (s.frame e).flags 0 0).getLsbD 0 then s.setReg e 8 (s.reg e 8 + 1) else s.setReg e 4 addr

theorem State.errorNoted_frame_ne (s : State) {e g : FrameId} (addr : Nat) (h : g ≠ e) : (s.errorNoted e addr).frame g = s.frame g := by
  unfold State.errorNoted; split <;> exact s.frame_modFrame_ne e g _ h
theorem State.sameButEvents_errorNoted (s : State) (e : FrameId) (addr : Nat) : s.sameButEvents (s.errorNoted e addr) := by
  unfold State.errorNoted; split <;> rfl
theorem State.errorNoted_first (s : State) {e : FrameId} (addr : Nat) (h : (tget (s.frame e).flags 0 0).getLsbD 0 = false) :
    (s.errorNoted e addr).reg e 4 = addr % 2 ^ 32 := by
  simp only [State.errorNoted, h]; exact s.reg_setReg_self e 4 addr
theorem State.errorNoted_later (s : State) {e : FrameId} (addr : Nat) (h : (tget (s.frame e).flags 0 0).getLsbD 0 = true) :
    (s.errorNoted e addr).reg e 8 = (s.reg e 8 + 1) % 2 ^ 32 := by
  simp only [State.errorNoted, h]; exact s.reg_setReg_self e 8 _

/-- A mismatch before its unit freezes: noted, counted, its flag set and its alarm raised (R60). -/
def State.mismatchTold (s : State) (f : FrameId) (off : Nat) : State :=
  ((s.mismatchNoted f off).errorNoted (evtFrame (hopOf f)) (s.bar0 f + off)).flagEvent (evtFrame (hopOf f)) 0 0 0x101 0xFF (u32 (s.bar0 f + off))

theorem State.parityFound_new (s : State) (f : FrameId) (off : Nat) (hr : setHas (s.frame f).reported off = false) :
    s.parityFound f off = (s.mismatchTold f off).freeze f 0 := by
  have hb : (s.mismatchNoted f off).bar0 f = s.bar0 f := rfl
  unfold State.parityFound State.mismatchTold State.errorNoted
  rw [if_neg (by simp [hr]), ← hb]
  unfold State.mismatchNoted
  simp only [Bool.not_eq_true']
  split <;> simp_all

/-- A control unit freezes as a block (R6, R61). -/
theorem State.freeze_cu (s : State) (k reason : Nat) :
    s.freeze (.cu k) reason = (s.modFrame (.cu k) (fun fr => { fr with frozen := true })).event (.cu k) 0x10C
      ((s.modFrame (.cu k) (fun fr => { fr with frozen := true })).ctxByte k) 0 (u8 1 ++ u8 reason) := rfl

theorem evtFrame_evt {d : Nat} (h : d < 8) : evtFrame (hopOf (.evt d)) = .evt d := by simp [evtFrame, hopOf, h]

theorem regionOf_lt (k : Fin 128) : regionOf k.val < 8 := by unfold regionOf; omega

theorem evtFrame_cu (k : Fin 128) : evtFrame (hopOf (.cu k.val)) = .evt (regionOf k.val) := evtFrame_evt (regionOf_lt k)

theorem State.sameButEvents_parityFound_cu (s : State) (k off : Nat) (hr : setHas (s.frame (.cu k)).reported off = false) :
    s.sameButEvents (s.parityFound (.cu k) off) := by
  rw [s.parityFound_new _ _ hr, State.freeze_cu]
  have told : s.sameButEvents (s.mismatchTold (.cu k) off) := State.sameButEvents_trans (State.sameButEvents_trans
    (State.sameButEvents_setFrame s _ _) (State.sameButEvents_errorNoted _ _ _)) (State.sameButEvents_flagEvent _ _ _ _ _ _ _)
  exact State.sameButEvents_trans (State.sameButEvents_trans told (State.sameButEvents_setFrame _ _ _)) (State.sameButEvents_event _ _ _ _ _ _)

/-- What a mismatch first found in a control unit frame leaves of it and of its region's event frame (R60, R61). -/
theorem State.parityFound_cu (s : State) (k : Fin 128) (off : Nat) (hr : setHas (s.frame (.cu k.val)).reported off = false) :
    (s.parityFound (.cu k.val) off).frame (.cu k.val) = { (s.mismatchNoted (.cu k.val) off).frame (.cu k.val) with frozen := true }
      ∧ (tget ((s.parityFound (.cu k.val) off).frame (.evt (regionOf k.val))).flags 0 0).getLsbD 0 = true
      ∧ ∀ p, (s.parityFound (.cu k.val) off).reg (.evt (regionOf k.val)) p
          = ((s.mismatchNoted (.cu k.val) off).errorNoted (.evt (regionOf k.val)) (s.bar0 (.cu k.val) + off)).reg (.evt (regionOf k.val)) p := by
  have hne : FrameId.cu k.val ≠ .evt (regionOf k.val) := by simp
  rw [s.parityFound_new _ _ hr, State.freeze_cu]
  obtain ⟨told, flag⟩ := ((s.mismatchNoted (.cu k.val) off).errorNoted (.evt (regionOf k.val)) (s.bar0 (.cu k.val) + off)).flagEvent_flagsRaised
    (evtFrame_evt (regionOf_lt k)) 0 0 0x101 0xFF (u32 (s.bar0 (.cu k.val) + off)) (by decide) (by decide)
  rw [State.mismatchTold, evtFrame_cu]
  generalize ((s.mismatchNoted (.cu k.val) off).errorNoted (.evt (regionOf k.val)) (s.bar0 (.cu k.val) + off)).flagEvent
    (.evt (regionOf k.val)) 0 0 0x101 0xFF (u32 (s.bar0 (.cu k.val) + off)) = u at told flag ⊢
  have frozen := (u.modFrame (.cu k.val) (fun fr => { fr with frozen := true })).event_flagsRaised (.cu k.val) 0x10C
    ((u.modFrame (.cu k.val) (fun fr => { fr with frozen := true })).ctxByte k.val) 0 (u8 1 ++ u8 0) (by decide)
  rw [evtFrame_cu] at frozen
  have hevt := u.frame_modFrame_ne (.cu k.val) (.evt (regionOf k.val)) (fun fr => { fr with frozen := true }) hne.symm
  refine ⟨?_, frozen.flags 0 0 (by rw [hevt]; exact flag), fun p => ?_⟩
  · rw [frozen.frame _ hne, State.frame_modFrame_self, told.frame _ hne, State.errorNoted_frame_ne _ _ hne]
  · rw [frozen.reg, ← told.reg]
    unfold State.reg; rw [hevt]; rfl

theorem State.parityScrub_cu (off : BitVec 28) (s : State) (k : Fin 128) (o : Nat)
    (hb : setHas (s.frame (.cu k.val)).badParity o = true) (hr : setHas (s.frame (.cu k.val)).reported o = false)
    (ht : s.target .mgmt (atView off.toNat 0) false = .frame (.cu k.val) o 0) :
    ∃ t, exec (.parityScrub off) s = .next t
      ∧ t.frozen (.cu k.val) = true ∧ setHas (t.frame (.cu k.val)).reported o = true ∧ (tget (t.frame (.evt (regionOf k.val))).flags 0 0).getLsbD 0 = true
      ∧ ((tget (s.frame (.evt (regionOf k.val))).flags 0 0).getLsbD 0 = false → t.reg (.evt (regionOf k.val)) 4 = (s.bar0 (.cu k.val) + o) % 2 ^ 32)
      ∧ ((tget (s.frame (.evt (regionOf k.val))).flags 0 0).getLsbD 0 = true → t.reg (.evt (regionOf k.val)) 8 = (s.reg (.evt (regionOf k.val)) 8 + 1) % 2 ^ 32)
      ∧ t.mem = s.mem ∧ t.cores = s.cores := by
  obtain ⟨hcu, hflag, hreg⟩ := s.parityFound_cu k o hr
  have hevt : (s.mismatchNoted (.cu k.val) o).frame (.evt (regionOf k.val)) = s.frame (.evt (regionOf k.val)) :=
    s.frame_modFrame_ne _ _ _ (by simp)
  have hsame := s.sameButEvents_parityFound_cu k.val o hr
  refine ⟨s.parityFound (.cu k.val) o, ?_, ?_, ?_, hflag, fun h => ?_, fun h => ?_, by rw [hsame], by rw [hsame]⟩
  · show execParityScrub off s = _
    simp only [execParityScrub, ht, hb, if_true]
  · simp [State.frozen, State.ownFrozen, hcu]
  · simp [hcu, State.mismatchNoted]
  · rw [hreg, State.errorNoted_first _ _ (by rw [hevt]; exact h)]
  · rw [hreg, State.errorNoted_later _ _ (by rw [hevt]; exact h)]
    unfold State.reg; rw [hevt]; rfl

/-! ## Powered-down domains -/

theorem State.write_poweredDown (s : State) {ag : Agent} {o : Nat} (h : s.target ag o true = .poweredDown) (v : Nat) :
    s.write ag o v = s.writeError ag o := by
  simp [State.write, s.not_inStrongroom_of_poweredDown h, h]

theorem State.read_poweredDown (s : State) {ag : Agent} {o : Nat} (h : s.target ag o false = .poweredDown) :
    s.read ag o = s.readError ag o := by
  simp [State.read, h]

theorem State.coreBusError_away (s t : State) (k : Fin 128) (o : Nat) (h : s.atBoundary k.val = false) : s.coreBusError t k o = s := by
  simp [State.coreBusError, h]

theorem State.coreBusError_cause (s t : State) (k : Fin 128) (o : Nat) {c : Cause} (h : s.atBoundary k.val = true)
    (hc : s.boundaryCause k.val = some c) :
    s.coreBusError t k o = ((s.cancelWait k.val k.isLt).unpend k.val c.code).enter k.val c (s.core k.val).pc := by
  have hpc : (((s.cancelWait k.val k.isLt).unpend k.val c.code).core k.val).pc = (s.core k.val).pc := by
    rw [State.unpend, State.core_modCore_self, State.cancelWait, State.core_modCore_self]; rfl
  simp [State.coreBusError, h, State.takeBoundary, hc, hpc]

theorem State.coreBusError_masked (s t : State) (k : Fin 128) (o : Nat) (h : s.atBoundary k.val = true)
    (hc : s.boundaryCause k.val = none) (hm : s.masked k.val 7 = true) : s.coreBusError t k o = t.noteMasked k.val 7 := by
  simp [State.coreBusError, h, State.takeBoundary, hc, hm]

theorem State.coreBusError_taken (s t : State) (k : Fin 128) (o : Nat) (h : s.atBoundary k.val = true)
    (hc : s.boundaryCause k.val = none) (hm : s.masked k.val 7 = false) :
    s.coreBusError t k o = (t.cancelWait k.val k.isLt).enter k.val { code := 7, precise := true, addr := BitVec.ofNat 64 o } (s.core k.val).pc := by
  simp [State.coreBusError, h, State.takeBoundary, hc, hm, State.precise]

/-- A powered-down domain lies inside the BAR0 of the function that reaches it (R463, R464). -/
theorem State.inBar0_of_poweredDown (s : State) {fn : Fin 64} {o : Nat} {wr : Bool} (h : s.target (.host fn) o wr = .poweredDown) :
    s.inBar0 (.host fn) o = true := by
  simp only [State.inBar0, Bool.or_eq_true, Bool.and_eq_true, beq_iff_eq, decide_eq_true_eq]
  by_cases h0 : fn.val = 0
  · exact .inl h0
  · unfold State.target at h
    split at h
    · cases h
    · simp only [h0, if_false] at h
      split at h
      · refine .inr ⟨by assumption, ?_⟩
        unfold State.vfTarget at h
        grind
      · cases h

theorem State.aer_mem_aer (s : State) (fn : Nat) (e : AerError) : e ∈ (tget (s.aer fn e).host.fns fn {}).aer := by
  simp only [State.aer, State.modFn, tmod, tget_tset_self]
  split
  · simp_all
  · simp

theorem State.poweredDown_host_read (s : State) (off : BitVec 28) (fn : Fin 64) (h : s.target (.host fn) off.toNat false = .poweredDown) :
    ∃ t, exec (.poweredDownTimeout (.host fn) off none) s = .next t ∧ t.out = s.out ++ [.abort fn.val]
      ∧ .completerAbort ∈ (tget t.host.fns fn.val {}).aer ∧ t.frames = s.frames ∧ t.mem = s.mem ∧ t.cores = s.cores := by
  refine ⟨s.readAbort fn.val, ?_, rfl, s.aer_mem_aer fn.val .completerAbort, rfl, rfl, rfl⟩
  show Host.Outcome.next (s.read (.host fn) off.toNat) = _
  simp [s.read_poweredDown h, State.readError, State.readFailed, s.inBar0_of_poweredDown h]

/-- BUSERR_OFF holds the offset of the first failed write since BUSERR was clear (R72). -/
def State.busErrorNoted (s : State) (f : FrameId) (o : Nat) : State :=
  if (tget (s.frame f).flags 0x10 0).getLsbD 0 then s else s.setReg f 0x14 o

/-- A host write that ends in a bus error: BUSERR_OFF, then BUSERR with its record (R72). -/
def State.hostWriteFailed (s : State) (fn o : Nat) : State :=
  (s.busErrorNoted (.func fn) o).flagEvent (.func fn) 0x10 0 0x201 fn (u32 o)

theorem State.sameButEvents_hostWriteFailed (s : State) (fn o : Nat) : s.sameButEvents (s.hostWriteFailed fn o) := by
  have noted : s.sameButEvents (s.busErrorNoted (.func fn) o) := by unfold State.busErrorNoted; split <;> rfl
  exact State.sameButEvents_trans noted (State.sameButEvents_flagEvent _ _ _ _ _ _ _)

/-- The record of a function's bus error touches the registrar's event frame alone. -/
theorem State.hostWriteFailed_flagsRaised (s : State) (fn o : Nat) :
    FlagsRaised .revt ((s.busErrorNoted (.func fn) o).raise (.func fn) 0x10 0) (s.hostWriteFailed fn o) :=
  State.event_flagsRaised _ (.func fn) 0x201 fn _ _ (by decide)

theorem State.hostWriteFailed_flag (s : State) (fn o : Nat) : (tget ((s.hostWriteFailed fn o).frame (.func fn)).flags 0x10 0).getLsbD 0 = true := by
  rw [(s.hostWriteFailed_flagsRaised fn o).frame _ (by simp), State.raise, State.frame_modFrame_self, Frame.raise_flag _ _ _ _ _ (by decide)]
  simp

theorem State.hostWriteFailed_reg (s : State) (fn o : Nat) : (s.hostWriteFailed fn o).reg (.func fn) 0x14 = (s.busErrorNoted (.func fn) o).reg (.func fn) 0x14 := by
  rw [(s.hostWriteFailed_flagsRaised fn o).reg]
  exact State.reg_modFrame_of_regs _ _ _ _ _ rfl

theorem State.poweredDown_host_write (s : State) (off : BitVec 28) (v : W32) (fn : Fin 64) (h : s.target (.host fn) off.toNat true = .poweredDown) :
    ∃ t, exec (.poweredDownTimeout (.host fn) off (some v)) s = .next t
      ∧ (tget (t.frame (.func fn.val)).flags 0x10 0).getLsbD 0 = true
      ∧ ((tget (s.frame (.func fn.val)).flags 0x10 0).getLsbD 0 = false → t.reg (.func fn.val) 0x14 = off.toNat)
      ∧ ((tget (s.frame (.func fn.val)).flags 0x10 0).getLsbD 0 = true → t.reg (.func fn.val) 0x14 = s.reg (.func fn.val) 0x14)
      ∧ t.mem = s.mem ∧ t.cores = s.cores := by
  have same := s.sameButEvents_hostWriteFailed fn.val off.toNat
  refine ⟨s.hostWriteFailed fn.val off.toNat, ?_, s.hostWriteFailed_flag _ _, fun hf => ?_, fun hf => ?_, by rw [same], by rw [same]⟩
  · show Host.Outcome.next (s.write (.host fn) off.toNat v.toNat) = _
    simp [s.write_poweredDown h, State.writeError, State.writeFailed, s.inBar0_of_poweredDown h, State.hostWriteFailed, State.busErrorNoted]
  · rw [State.hostWriteFailed_reg, State.busErrorNoted, hf, if_neg (by simp), State.reg_setReg_self, Nat.mod_eq_of_lt (by omega)]
  · rw [State.hostWriteFailed_reg, State.busErrorNoted, hf, if_pos rfl]

/-- A core learns of a powered-down domain at a boundary, behind what the boundary takes first (R71, R72, R351). -/
theorem State.poweredDown_core (s : State) (off : BitVec 28) (v : W32) (k : Fin 128)
    (hw : s.target (.core k) off.toNat true = .poweredDown) (hr : s.target (.core k) off.toNat false = .poweredDown) :
    exec (.poweredDownTimeout (.core k) off (some v)) s = .next (s.coreBusError s k off.toNat)
      ∧ (s.masked k.val 7 = false → exec (.poweredDownTimeout (.core k) off none) s = .next (s.coreBusError s k off.toNat)) :=
  ⟨congrArg Host.Outcome.next (s.write_poweredDown hw v.toNat), fun hm =>
    congrArg Host.Outcome.next ((s.read_poweredDown hr).trans (by simp [State.readError, State.readFailed, hm]))⟩

/-- Settles O40, clause by clause: captured words, counters, parity, powered-down domains. -/
theorem readsAndCounters : Obligations.ReadsAndCounters := by
  unfold Obligations.ReadsAndCounters
  refine ⟨fun ag off s f o view ht hb => ⟨State.lowRead_captures ag off s f o view ht hb, fun m r => State.highRead_captured ag off s f o view m r ht hb⟩,
    fun ag off v s f o ht hp ha => ⟨State.counterWrite_low ag off v s f o ht hp ha, State.counterWrite_high ag off v s f o ht hp ha⟩,
    fun ag off s f o view hb hr => ⟨fun ht hi => ?_, fun ht => ?_⟩, State.parityScrub_cu,
    fun off s v fn => ⟨fun hw hr => ⟨?_, ?_⟩, fun k hw hr => ?_, s.poweredDown_host_read off fn, s.poweredDown_host_write off v fn⟩⟩
  · show Host.Outcome.next (s.read ag off.toNat) = _
    rw [s.read_badParity ht hi hb, s.parityFound_reported hr]; rfl
  · show execParityScrub off s = _
    simp only [execParityScrub, ht, hb, if_true, s.parityFound_reported hr]
  · show Host.Outcome.next (s.write .mgmt off.toNat v.toNat) = _
    rw [s.write_poweredDown hw]; rfl
  · show Host.Outcome.next (s.read .mgmt off.toNat) = _
    rw [s.read_poweredDown hr]; rfl
  · intro t
    have ht : s.coreBusError s k off.toNat = t := by
      cases hat : s.atBoundary k.val with
      | false => simp [t, s.coreBusError_away s k _ hat, hat]
      | true =>
        cases hc : s.boundaryCause k.val with
        | some c => simp [t, s.coreBusError_cause s k _ hat hc, hat, hc]
        | none =>
          cases hm : s.masked k.val 7 with
          | true => simp [t, s.coreBusError_masked s k _ hat hc hm, hat, hc, hm]
          | false => simp [t, s.coreBusError_taken s k _ hat hc hm, hat, hc, hm]
    rw [← ht]
    exact s.poweredDown_core off v k hw hr

end Sys2Proof.Machine
end

section
/-! PROOFS. A clause that fails: the flip of a parity bit beside a WB change that finds its hub full (R65, R518, R529). -/
namespace Sys2Proof.Machine

/-! ## A WB change while the event hub is full -/

/-- Test mode, PTB_FLIP of region 0 holding 0, and the 16 buffers of that region's event hub taken. -/
def fullHub : State :=
  ({ State.reset with
      srm := { State.reset.srm with testEnable := true }
      ev := { hubs := [(0, List.replicate 16 readyRecord)] } } : State).setReg (.ptb 0) 0x20 0

/-- PTB_FLIP's GO, a WB bit, and the offset of EVT_TRACE_CTRL in region 0. -/
def flipTraceCtrl : W32 := 0x81008010

/-- The write sets EVT_STAT.HELD, which was clear. -/
theorem fullHub_flip_sets_held : ((fullHub.write .mgmt (fullHub.bar0 (.ptb 0) + 0x20) flipTraceCtrl.toNat).frame (.evt 0)).flags = [(0, 2)]
    ∧ (fullHub.frame (.evt 0)).flags = [] := by
  decide +kernel

/-- Refutes O41: PTB_FLIP inverts the parity bit of EVT_TRACE_CTRL with a write that also changes one of its own WB bits. The alarm of that
change (R65) finds region 0's hub full and waits in the outbox, so EVT_STAT.HELD is set (R518) in the very frame whose flags the clause says are unchanged. -/
theorem not_unitRegisterWrites : ¬ Obligations.UnitRegisterWrites := by
  unfold Obligations.UnitRegisterWrites
  intro h
  obtain ⟨_, _, _, flip, _⟩ := h .mgmt fullHub flipTraceCtrl
  obtain ⟨t, ht, _, _, hflags, _⟩ := flip 0 (.evt 0) (by decide +kernel) rfl (by decide) (by decide +kernel) (by decide) (by decide)
  have hw : t = fullHub.write .mgmt (fullHub.bar0 (.ptb 0) + 0x20) flipTraceCtrl.toNat := by
    injection ht.symm
  obtain ⟨hnew, hold⟩ := fullHub_flip_sets_held
  have hset : (t.frame (.evt 0)).flags = [(0, 2)] := by rw [hw]; exact hnew
  rw [hset, hold] at hflags
  cases hflags

end Sys2Proof.Machine
end

section
/-! PROOFS. The sorting frame of an access engine and what its requests leave; data that return; writes that are accepted (R275 to R299). -/
namespace Sys2Proof.Machine

/-! ## What the sorting frame looks at -/

@[simp] theorem Frame.setCtr_frozen (fr : Frame) (off v : Nat) : (fr.setCtr off v).frozen = fr.frozen := rfl

/-- Adding to a counter leaves every register but its two words. -/
theorem State.bump_reg (s : State) (f g : FrameId) (off n p : Nat) (h : g = f → p ≠ off ∧ p ≠ off + 4) : (s.bump f off n).reg g p = s.reg g p := by
  unfold State.bump
  split
  · rfl
  · by_cases hg : g = f
    · obtain ⟨h1, h2⟩ := h hg
      refine s.reg_modFrame_of_regs f g _ p ?_
      simp [Frame.setCtr, Frame.setReg, tget_tset_ne _ _ _ _ _ h1, tget_tset_ne _ _ _ _ _ h2]
    · unfold State.reg; rw [s.frame_modFrame_ne f g _ hg]; rfl

theorem State.bump_ownFrozen (s : State) (f g : FrameId) (off n : Nat) : (s.bump f off n).ownFrozen g = s.ownFrozen g := by
  unfold State.bump
  split
  · rfl
  · by_cases hg : g = f
    · subst hg; simp [State.ownFrozen]
    · simp [State.ownFrozen, s.frame_modFrame_ne f g _ hg]

/-- `t` is `s` for all that the choice of a request and its lookup depend on: the engine but for its next cycle, the cache, its enable bit and its freeze, the cap of a bank. -/
structure SameForFrame (k : Nat) (s t : State) : Prop where
  ae : ∃ n, t.ae k = { s.ae k with nextIssue := n }
  cache : t.cache k = s.cache k
  regions : t.regions = s.regions
  enable : t.reg (.mc k) 0 = s.reg (.mc k) 0
  cap : t.reg (.ae k) 8 = s.reg (.ae k) 8
  frozen : ∀ f, t.ownFrozen f = s.ownFrozen f

namespace SameForFrame
variable {k : Nat} {s t : State}

theorem lookups (h : SameForFrame k s t) : t.lookups k = s.lookups k := by
  simp only [State.lookups, State.frozen, h.frozen, h.cache, State.region, h.regions]

theorem slotPlaces (h : SameForFrame k s t) : t.slotPlaces k = s.slotPlaces k := by
  obtain ⟨n, ha⟩ := h.ae
  simp only [State.slotPlaces, ha, h.cache]

theorem cacheOn (h : SameForFrame k s t) : t.cacheOn k = s.cacheOn k := by
  simp only [State.cacheOn, h.enable]

theorem belowCap (h : SameForFrame k s t) (a : Nat) : t.belowCap k a = s.belowCap k a := by
  unfold State.belowCap State.bankSlots
  rw [h.slotPlaces, h.cap]

theorem writeHeld (h : SameForFrame k s t) (older : List Req) (secs : List Nat) : t.writeHeld k older secs = s.writeHeld k older secs := by
  obtain ⟨n, ha⟩ := h.ae
  simp only [State.writeHeld, ha]

theorem lineBack (h : SameForFrame k s t) (secs : List Nat) : t.lineBack k secs = s.lineBack k secs := by
  obtain ⟨n, ha⟩ := h.ae
  simp only [State.lineBack, ha]

theorem eligible (h : SameForFrame k s t) (older : List Req) (r : Req) : t.eligible k older r = s.eligible k older r := by
  simp only [State.eligible, h.belowCap, h.writeHeld, h.lineBack, State.fromMemory, h.cache, h.cacheOn]

theorem chooseRequest (h : SameForFrame k s t) (c : Nat) : t.chooseRequest k c = s.chooseRequest k c := by
  obtain ⟨n, ha⟩ := h.ae
  have hh : Ae.hot { s.ae k with nextIssue := n } = (s.ae k).hot := rfl
  unfold State.chooseRequest
  simp only [ha, hh, h.eligible]

end SameForFrame

/-! ## What a request that leaves the frame changes of its core's engine -/

/-- `t` has what `s` has in engine `k`, in device memory and in the cores. -/
structure EngineKept (k : Nat) (s t : State) : Prop where
  ae : t.ae k = s.ae k
  mem : t.mem = s.mem
  cores : t.cores = s.cores

/-- `t` has what `s` has in the sorting frame of engine `k` and before it, in device memory and in the cores. -/
structure FrameKept (k : Nat) (s t : State) : Prop where
  frame : (t.ae k).frame = (s.ae k).frame
  again : (t.ae k).again = (s.ae k).again
  nextIssue : (t.ae k).nextIssue = (s.ae k).nextIssue
  mem : t.mem = s.mem
  cores : t.cores = s.cores

theorem State.ae_bump (s : State) (f : FrameId) (o n k : Nat) : (s.bump f o n).ae k = s.ae k := by
  unfold State.bump; split <;> rfl
theorem State.bump_cores (s : State) (f : FrameId) (o n : Nat) : (s.bump f o n).cores = s.cores := by
  unfold State.bump; split <;> rfl
theorem State.cache_bump (s : State) (f : FrameId) (o n k : Nat) : (s.bump f o n).cache k = s.cache k := by
  unfold State.bump; split <;> rfl
theorem State.bump_regions (s : State) (f : FrameId) (o n : Nat) : (s.bump f o n).regions = s.regions := by
  unfold State.bump; split <;> rfl
theorem State.ae_act (s : State) (j k : Nat) : (s.act j).ae k = s.ae k := by
  unfold State.act; split <;> rfl
theorem State.act_cores (s : State) (j : Nat) : (s.act j).cores = s.cores := by
  unfold State.act; split <;> rfl

/-- Dropping tray entries leaves the engine, device memory, the cores and whether the cache is enabled. -/
theorem State.dropTray_kept (s : State) (k : Nat) (count mark : Bool) (p : Nat → Bool) :
    EngineKept k s (s.dropTray k count mark p) ∧ (s.dropTray k count mark p).cacheOn k = s.cacheOn k := by
  refine ⟨⟨?_, ?_, ?_⟩, ?_⟩
  · rw [State.dropTray, State.ae_bump]; rfl
  · rw [State.dropTray, State.bump_mem]; rfl
  · rw [State.dropTray, State.bump_cores]; rfl
  · rw [State.dropTray, State.cacheOn, State.bump_reg _ _ _ _ _ _ (by simp)]; rfl

theorem State.hitParts_kept (k : Nat) : ∀ (l : List WPart) (s : State), EngineKept k s (s.hitParts k l).1 := by
  intro l
  induction l with
  | nil => intro s; exact ⟨rfl, rfl, rfl⟩
  | cons w r ih =>
    intro s
    obtain ⟨hd, _⟩ := s.dropTray_kept k true true (fun n => n == w.pa / 128)
    simp only [State.hitParts]
    split
    · exact ⟨(ih _).ae.trans hd.ae, (ih _).mem.trans hd.mem, (ih _).cores.trans hd.cores⟩
    · exact ⟨(ih _).ae.trans hd.ae, (ih _).mem.trans hd.mem, (ih _).cores.trans hd.cores⟩

/-- With the cache disabled every part of a write misses (R290). -/
theorem State.hitParts_off (k : Nat) : ∀ (l : List WPart) (s : State), s.cacheOn k = false → (s.hitParts k l).2 = l := by
  intro l
  induction l with
  | nil => intro s _; rfl
  | cons w r ih =>
    intro s hoff
    obtain ⟨_, hon⟩ := s.dropTray_kept k true true (fun n => n == w.pa / 128)
    have hoff' := hon.trans hoff
    simp only [State.hitParts, hoff', Bool.false_eq_true, if_false, ih _ hoff']

/-- A write that misses the cache goes on its way with its slot (R275, R288). -/
theorem State.writeLine_kept (s : State) (k : Nat) (desc : Option Nat) (l : List WPart) :
    FrameKept k s (s.writeLine k desc none l) ∧ ((s.writeLine k desc none l).ae k).slots = (s.ae k).slots
      ∧ (l ≠ [] → s.cacheOn k = false → ((s.writeLine k desc none l).ae k).writes = (s.ae k).writes ++ [{ parts := l, desc := desc }]) := by
  have h := State.hitParts_kept k l s
  unfold State.writeLine
  simp only
  split
  next hm =>
    refine ⟨⟨by rw [h.ae], by rw [h.ae], by rw [h.ae], h.mem, h.cores⟩, by rw [h.ae], fun hl hoff => ?_⟩
    rw [State.hitParts_off k l s hoff, List.isEmpty_iff] at hm
    exact absurd hm hl
  next hm =>
    refine ⟨⟨?_, ?_, ?_, h.mem, h.cores⟩, ?_, fun hl hoff => ?_⟩
    all_goals rw [State.ae_modAe_self, h.ae]
    rw [State.hitParts_off k l s hoff]

/-- What a read holds in its slot once it was looked up (R287, R290). -/
def State.readSlot (s : State) (k : Nat) (r : Req) : Req :=
  { r with on := s.cacheOn k, fill := if r.alloc && !r.na && s.cacheOn k then r.sectors.filter (fun sec => ((s.cache k).sector sec).isNone) else [], dropped := false }

theorem State.lookUp_evict (s : State) (k : Nat) {r : Req} (h : r.evict = true) :
    s.lookUp k r = (s.opens k r.place).modAe k (fun a => { a with writes := a.writes ++ [{ parts := r.parts, evict := true, maint := r.maint }] }) := by
  simp [State.lookUp, h]

theorem State.lookUp_write (s : State) (k : Nat) {r : Req} (he : r.evict = false) (h : r.isWrite = true) :
    s.lookUp k r = (s.opens k r.place).writeLine k r.desc none r.parts := by
  simp [State.lookUp, h, he]

theorem State.lookUp_read (s : State) (k : Nat) {r : Req} (h : r.isWrite = false) :
    s.lookUp k r = (s.opens k r.place).modAe k (fun a => { a with slots := a.slots ++ [s.readSlot k r] }) := by
  have he : r.evict = false := by simp [Req.evict, h]
  simp only [State.lookUp, h, he]
  rfl

/-- A request that is looked up leaves the frame as it is; a read takes a slot, a write adds to the writes on their way at most. -/
theorem State.lookUp_kept (s : State) (k : Nat) (r : Req) :
    FrameKept k s (s.lookUp k r)
      ∧ (r.isWrite = false → ((s.lookUp k r).ae k).writes = (s.ae k).writes ∧ ((s.lookUp k r).ae k).slots = (s.ae k).slots ++ [s.readSlot k r])
      ∧ (r.isWrite = true → ((s.lookUp k r).ae k).slots = (s.ae k).slots)
      ∧ (r.evict = true → ((s.lookUp k r).ae k).writes = (s.ae k).writes ++ [{ parts := r.parts, evict := true, maint := r.maint }])
      ∧ (r.isWrite = true → r.evict = false → s.cacheOn k = false → ((s.lookUp k r).ae k).writes = (s.ae k).writes ++ [{ parts := r.parts, desc := r.desc }]) := by
  have ho : (s.opens k r.place).ae k = { s.ae k with openPage := tset (s.ae k).openPage (bankOf r.place) (pageOf r.place) } :=
    s.ae_modAe_self k _
  cases hw : r.isWrite with
  | false =>
    have he : r.evict = false := by simp [Req.evict, hw]
    rw [s.lookUp_read k hw, State.ae_modAe_self, ho]
    exact ⟨⟨by simp [ho], by simp [ho], by simp [ho], rfl, rfl⟩, by simp, by simp, by simp [he], by simp⟩
  | true =>
    cases he : r.evict with
    | true =>
      rw [s.lookUp_evict k he, State.ae_modAe_self, ho]
      exact ⟨⟨by simp [ho], by simp [ho], by simp [ho], rfl, rfl⟩, by simp, by simp, by simp, by simp⟩
    | false =>
      obtain ⟨hk, hslots, hmiss⟩ := (s.opens k r.place).writeLine_kept k r.desc r.parts
      rw [s.lookUp_write k he hw]
      refine ⟨⟨by rw [hk.frame, ho], by rw [hk.again, ho], by rw [hk.nextIssue, ho], hk.mem, hk.cores⟩, by simp, fun _ => by rw [hslots, ho],
        by simp, fun _ _ hoff => ?_⟩
      rw [hmiss (by simpa [Req.isWrite] using hw) hoff, ho]

/-- With nothing before the frame there is nothing to refill it with. -/
theorem State.refill_nothing (s : State) (k : Nat) (h : (s.ae k).again = []) : (s.refill k).ae k = s.ae k := by
  rw [State.refill, State.ae_modAe_self]
  simp only [h, List.take_nil, List.map_nil, List.append_nil, List.drop_nil]
  rw [← h]

/-! ## The frame issues a request -/

/-- The state in which the frame of a core chooses in region cycle `cyc`: the cycle is taken, a hot one is counted (R276, R278). -/
def State.cycleTaken (s : State) (k cyc : Nat) : State :=
  if (s.ae k).hot then (s.modAe k (fun a => { a with nextIssue := cyc + 1 })).bump (.ae k) 0x408 1 else s.modAe k (fun a => { a with nextIssue := cyc + 1 })

theorem State.cycleTaken_ae (s : State) (k cyc : Nat) : (s.cycleTaken k cyc).ae k = { s.ae k with nextIssue := cyc + 1 } := by
  unfold State.cycleTaken
  split
  · rw [State.ae_bump, State.ae_modAe_self]
  · rw [State.ae_modAe_self]

theorem State.cycleTaken_same (s : State) (k cyc : Nat) : SameForFrame k s (s.cycleTaken k cyc) := by
  refine ⟨⟨cyc + 1, s.cycleTaken_ae k cyc⟩, ?_, ?_, ?_, ?_, fun f => ?_⟩
  all_goals
    unfold State.cycleTaken
    split
  · rw [State.cache_bump]; rfl
  · rfl
  · rw [State.bump_regions]; rfl
  · rfl
  · rw [State.bump_reg _ _ _ _ _ _ (by simp)]; rfl
  · rfl
  · rw [State.bump_reg _ _ _ _ _ _ (by simp)]; rfl
  · rfl
  · rw [State.bump_ownFrozen]; rfl
  · rfl

theorem State.cycleTaken_mem (s : State) (k cyc : Nat) : (s.cycleTaken k cyc).mem = s.mem := by
  unfold State.cycleTaken; split
  · rw [State.bump_mem]; rfl
  · rfl
theorem State.cycleTaken_cores (s : State) (k cyc : Nat) : (s.cycleTaken k cyc).cores = s.cores := by
  unfold State.cycleTaken; split
  · rw [State.bump_cores]; rfl
  · rfl

/-- A frame that may issue in this cycle, finds a free slot and lookups going on, issues the request it chooses (R276). -/
theorem State.requestIssue_issues (k : Fin 128) (s : State) (cyc i : Nat) {r : Req} (hs : s.aeStarts k.val = true)
    (hr : (s.ae k.val).frame[i]? = some r) (hn : (s.ae k.val).nextIssue ≤ cyc) (hc : s.chooseRequest k.val cyc = some i)
    (hf : s.slotsFull k.val = false) (hl : s.lookups k.val = true) :
    exec (.requestIssue k cyc) s = .next ((s.cycleTaken k.val cyc).issueRequest k.val i r) := by
  have same := s.cycleTaken_same k.val cyc
  have hne : (s.ae k.val).frame.isEmpty = false := by
    cases h : (s.ae k.val).frame with
    | nil => simp [h] at hr
    | cons x l => rfl
  have hfull : (s.cycleTaken k.val cyc).slotsFull k.val = false := by rw [State.slotsFull, same.slotPlaces]; exact hf
  have hchoose := (same.chooseRequest cyc).trans hc
  have hlook := same.lookups.trans hl
  show execRequestIssue k cyc s = _
  unfold State.cycleTaken at hfull hchoose hlook ⊢
  simp [execRequestIssue, hs, hne, Nat.not_lt.mpr hn, hchoose, hfull, hr, hlook]

/-- The request at place `i` has left the frame. -/
def State.requestTaken (s : State) (k i : Nat) : State := s.modAe k (fun a => { a with frame := listDel a.frame i })

/-- With nothing waiting before the frame, the request leaves it and is looked up. -/
theorem State.issueRequest_ae (s : State) (k i : Nat) (r : Req) (ha : (s.ae k).again = []) :
    (s.issueRequest k i r).ae k = ((s.requestTaken k i).lookUp k r).ae k := by
  obtain ⟨kept, _⟩ := (s.requestTaken k i).lookUp_kept k r
  rw [State.issueRequest, State.ae_act, State.refill_nothing]
  · rfl
  · exact kept.again.trans ((congrArg Ae.again (s.ae_modAe_self k _)).trans ha)

theorem State.requestIssue_effect (k : Fin 128) (s : State) (hs : s.aeStarts k.val = true) (cyc i : Nat) (r : Req)
    (hr : (s.ae k.val).frame[i]? = some r) (hn : (s.ae k.val).nextIssue ≤ cyc) (hc : s.chooseRequest k.val cyc = some i)
    (hf : s.slotsFull k.val = false) (hl : s.lookups k.val = true) (ha : (s.ae k.val).again = []) :
    ∃ t, exec (.requestIssue k cyc) s = .next t ∧ (t.ae k.val).frame = listDel (s.ae k.val).frame i ∧ (t.ae k.val).nextIssue = cyc + 1 ∧ t.mem = s.mem ∧ t.cores = s.cores
      ∧ (r.isWrite = false → (t.ae k.val).writes = (s.ae k.val).writes ∧ (t.ae k.val).slots = (s.ae k.val).slots ++ [s.readSlot k.val r])
      ∧ (r.isWrite = true → (t.ae k.val).slots = (s.ae k.val).slots)
      ∧ (r.evict = true → (t.ae k.val).writes = (s.ae k.val).writes ++ [{ parts := r.parts, evict := true, maint := r.maint }])
      ∧ (r.isWrite = true → r.evict = false → s.cacheOn k.val = false → (t.ae k.val).writes = (s.ae k.val).writes ++ [{ parts := r.parts, desc := r.desc }]) := by
  have same := s.cycleTaken_same k.val cyc
  have hae := s.cycleTaken_ae k.val cyc
  have hx : ((s.cycleTaken k.val cyc).requestTaken k.val i).ae k.val
      = { s.ae k.val with nextIssue := cyc + 1, frame := listDel (s.ae k.val).frame i } := by rw [State.requestTaken, State.ae_modAe_self, hae]
  have hon : ((s.cycleTaken k.val cyc).requestTaken k.val i).cacheOn k.val = s.cacheOn k.val := same.cacheOn
  have hcache : ((s.cycleTaken k.val cyc).requestTaken k.val i).cache k.val = s.cache k.val := same.cache
  have hslot : ((s.cycleTaken k.val cyc).requestTaken k.val i).readSlot k.val r = s.readSlot k.val r := by
    simp only [State.readSlot, hon, hcache]
  obtain ⟨kept, hread, hwrite, hevict, hmiss⟩ := ((s.cycleTaken k.val cyc).requestTaken k.val i).lookUp_kept k.val r
  have ht := (s.cycleTaken k.val cyc).issueRequest_ae k.val i r (by rw [hae]; exact ha)
  refine ⟨_, State.requestIssue_issues k s cyc i hs hr hn hc hf hl, ?_, ?_, ?_, ?_, fun h => ?_, fun h => ?_, fun h => ?_, fun h he hoff => ?_⟩
  · rw [ht, kept.frame, hx]
  · rw [ht, kept.nextIssue, hx]
  · rw [State.issueRequest, State.act_mem]
    exact kept.mem.trans (s.cycleTaken_mem k.val cyc)
  · rw [State.issueRequest, State.act_cores]
    exact kept.cores.trans (s.cycleTaken_cores k.val cyc)
  · rw [ht, (hread h).1, (hread h).2, hx, hslot]; exact ⟨rfl, rfl⟩
  · rw [ht, hwrite h, hx]
  · rw [ht, hevict h, hx]
  · rw [ht, hmiss h he (hon.trans hoff), hx]

/-! ## Data that return, and writes that are accepted -/

theorem State.aeRuns_of_aeStarts {s : State} {k : Nat} (h : s.aeStarts k = true) : s.aeRuns k = true := by
  simp only [State.aeStarts, Bool.and_eq_true] at h; exact h.1

theorem State.ready_of_aeStarts {s : State} {k : Nat} (h : s.aeStarts k = true) : s.pwr.ready = true := by
  simp only [State.aeStarts, State.aeRuns, Bool.and_eq_true] at h
  obtain ⟨⟨⟨hready, -⟩, -⟩, -⟩ := h
  exact hready

theorem State.readDataReturn_delivers (k : Fin 128) (s : State) (j : Nat) {r : Req} (hs : s.aeRuns k.val = true)
    (hr : (s.ae k.val).slots[j]? = some r) (hl : s.lookups k.val = true)
    (hb : s.behind k.val (s.fromMemory k.val r.on r.sectors) = false) (hd : r.dropped = false) :
    exec (.readDataReturn k j) s
      = .next (let x := (s.modAe k.val (fun a => { a with slots := listDel a.slots j })).readLine k.val r.on (fun sec => r.fill.contains sec) r.na r.pa r.len
        (x.st.deliver k.val r x.bytes x.poison).act k.val) := by
  show execReadDataReturn k j s = _
  simp [execReadDataReturn, hr, hs, hl, hb, State.returnRead, hd]

theorem sectorPieces_sector (n : Nat) : sectorPieces (n * 128) 128 = [(n * 128, 128)] := by
  simp [sectorPieces, pieces]

/-- A whole sector read at a stack controller that serves it, behind no fence. -/
theorem State.readPhys_sector (s : State) (src : FrameId) (ctx n : Nat) (hf : (s.region (regionOfPa (n * 128))).fenced = false)
    (hh : s.stackHeld (n * 128) = false) :
    s.readPhys src ctx (n * 128) 128 = ⟨s, memBytes s.mem (n * 128) 128, setHas s.memPoison n, none⟩ := by
  simp [State.readPhys, sectorPieces_sector, State.readPieces, State.readPiece, hf, hh, Rd.then, Rd.report, State.fenceReport]

theorem State.stackHeld_of_behind {s : State} {k n : Nat} (h : s.behind k [n] = false) : s.stackHeld (n * 128) = false := by
  simp only [State.behind, Bool.or_eq_false_iff, List.any_cons, List.any_nil] at h
  obtain ⟨-, hheld, -⟩ := h
  rwa [Nat.mul_comm]

theorem State.trayFillArrival_discards (k : Fin 128) (s : State) (j : Nat) {f : Prefetch} (hs : s.aeRuns k.val = true)
    (hf : (s.cache k.val).prefetch[j]? = some f) (hm : s.frozen (.mc k.val) = false) (hd : f.discard = true) :
    exec (.trayFillArrival k j) s = .next ((s.modCache k.val (fun c => { c with prefetch := listDel c.prefetch j })).act k.val) := by
  show execTrayFillArrival k j s = _
  simp [execTrayFillArrival, hf, hs, hm, hd]

theorem State.cache_act (s : State) (j k : Nat) : (s.act j).cache k = s.cache k := by
  unfold State.act; split <;> rfl

/-- The `j`-th prefetch in flight has arrived. -/
def State.prefetchTaken (s : State) (k j : Nat) : State := s.modCache k (fun c => { c with prefetch := listDel c.prefetch j })

/-- A sector lands in the tray, in place of the oldest of a full one (R294). -/
def State.trayAdded (s : State) (k : Nat) (e : TrayEntry) : State :=
  s.modCache k (fun c => { c with tray := (if c.tray.length < 64 then c.tray else c.tray.drop 1) ++ [e] })

theorem State.trayFillArrival_lands (k : Fin 128) (s : State) (j : Nat) {f : Prefetch} (hs : s.aeRuns k.val = true)
    (hf : (s.cache k.val).prefetch[j]? = some f) (hm : s.frozen (.mc k.val) = false) (hd : f.discard = false)
    (hroom : (s.cache k.val).tray.length < 64) (hb : s.behind k.val [f.sector] = false) (hfence : (s.region (regionOfPa (f.sector * 128))).fenced = false) :
    ∃ t, exec (.trayFillArrival k j) s = .next t ∧ (t.cache k.val).prefetch = listDel (s.cache k.val).prefetch j ∧ (t.cache k.val).lines = (s.cache k.val).lines
      ∧ (t.cache k.val).tray = (s.cache k.val).tray ++ [⟨f.sector, memBytes s.mem (f.sector * 128) 128, setHas s.memPoison f.sector⟩] ∧ t.mem = s.mem := by
  have hread := (s.prefetchTaken k.val j).readPhys_sector (.cu k.val) ((s.prefetchTaken k.val j).ctxByte k.val) f.sector hfence
    (s.stackHeld_of_behind hb)
  unfold State.prefetchTaken at hread
  refine ⟨((s.prefetchTaken k.val j).trayAdded k.val ⟨f.sector, memBytes s.mem (f.sector * 128) 128, setHas s.memPoison f.sector⟩).act k.val, ?_, ?_⟩
  · show execTrayFillArrival k j s = _
    simp [execTrayFillArrival, hf, hs, hm, hd, hb, hread, State.prefetchTaken, State.trayAdded]
  · simp [State.cache_act, hroom, State.prefetchTaken, State.trayAdded]

theorem State.writeAccepted_held (k : Fin 128) (s : State) (j : Nat) {w : PendWrite} (hw : (s.ae k.val).writes[j]? = some w)
    (hh : w.parts.any (fun p => s.stackHeld p.pa) = true) : exec (.writeAccepted k j) s = .next s := by
  show execWriteAccepted k j s = _
  simp only [execWriteAccepted, hw, hh, Bool.or_true, Bool.true_or, if_true]

/-- Device memory with one part written. -/
def State.published (s : State) (p : WPart) : State :=
  { s with mem := memPut s.mem p.pa p.data, memPoison := poisonAfter s.memPoison (p.pa / 128) p.data.length p.poison }

/-- One part written at a stack controller that serves it, behind no fence. -/
theorem State.writeRequest_one (s : State) (src : FrameId) (ctx : Nat) (p : WPart) (hf : (s.region (regionOfPa p.pa)).fenced = false)
    (hh : s.stackHeld p.pa = false) : s.writeRequest src ctx [p] = s.published p := by
  simp [State.writeRequest, State.writeParts, State.writePart, State.fencedPart, State.fenceReport, hf, hh, State.published]

/-- The `j`-th write on its way has been accepted. -/
def State.writeTaken (s : State) (k j : Nat) : State := s.modAe k (fun a => { a with writes := listDel a.writes j })

theorem State.act_memPoison (s : State) (k : Nat) : (s.act k).memPoison = s.memPoison := by
  unfold State.act; split <;> rfl

theorem State.writeAccepted_publishes (k : Fin 128) (s : State) (j : Nat) {w : PendWrite} {p : WPart} (hs : s.pwr.ready = true)
    (hw : (s.ae k.val).writes[j]? = some w) (hb : ((s.ae k.val).writes.take j).any (fun v => shares v.sectors w.sectors) = false)
    (ht : w.tile = none) (hp : w.parts = [p]) (hf : (s.region (regionOfPa p.pa)).fenced = false) (hh : s.stackHeld p.pa = false) :
    ∃ t, exec (.writeAccepted k j) s = .next t ∧ (t.ae k.val).writes = listDel (s.ae k.val).writes j ∧ t.mem = memPut s.mem p.pa p.data
      ∧ t.memPoison = poisonAfter s.memPoison (p.pa / 128) p.data.length p.poison ∧ t.frames = s.frames ∧ t.cores = s.cores
      ∧ (∀ b, b < p.pa ∨ p.pa + p.data.length ≤ b → memGet t.mem b = memGet s.mem b) := by
  have hacc : (s.writeTaken k.val j).acceptWrite k.val w = (s.writeTaken k.val j).published p := by
    simp only [State.acceptWrite, ht, hp]
    exact State.writeRequest_one _ _ _ p hf hh
  refine ⟨((s.writeTaken k.val j).published p).act k.val, ?_, ?_, State.act_mem _ _, State.act_memPoison _ _, State.act_frames _ _, State.act_cores _ _, fun b hb => ?_⟩
  · show execWriteAccepted k j s = _
    unfold State.writeTaken at hacc ⊢
    simp [execWriteAccepted, hw, hb, hp, hh, hs, hacc]
  · rw [State.ae_act]
    exact congrArg Ae.writes (s.ae_modAe_self k.val (fun a => { a with writes := listDel a.writes j }))
  · rw [State.act_mem]
    exact memGet_memPut_outside s.mem p.pa b p.data hb

/-- Settles O30, event by event. -/
theorem requestAndDataEvents : Obligations.RequestAndDataEvents := by
  unfold Obligations.RequestAndDataEvents
  intro k s hs K a
  have hruns := State.aeRuns_of_aeStarts hs
  exact ⟨fun cyc i r hr hn hc hf hl ha => s.requestIssue_effect k hs cyc i r hr hn hc hf hl ha,
    fun j r hr hl hb hd => s.readDataReturn_delivers k j hruns hr hl hb hd,
    fun j f hf hm hd => s.trayFillArrival_discards k j hruns hf hm hd,
    fun j f hf hm hd hroom hb hfence => s.trayFillArrival_lands k j hruns hf hm hd hroom hb hfence,
    fun j w hw hh => s.writeAccepted_held k j hw hh,
    fun j w p hw hb ht hp hf hh => s.writeAccepted_publishes k j (State.ready_of_aeStarts hs) hw hb ht hp hf hh⟩

end Sys2Proof.Machine
end
